-- ==== Sys2Proof/Word.lean ====
section
/-! DEFINITION. The word types of the desk-bus frame core (spec/00_scope.md R9, R10): all values are unsigned. -/

namespace Sys2Proof

/-- A bus byte, 8 bits (R9). -/
abbrev Byte := BitVec 8

/-- A host event word, 20 bits (R9, R71). -/
abbrev EventWord := BitVec 20

/-- The operand field `opnd` of an event word, 16 bits (R71). -/
abbrev Operand := BitVec 16

/-- A height or target in tenths, held in 16 bits (R9; 92 D5, D6). -/
abbrev Tenths := BitVec 16

/-- A decoded digit 0 to 9 (R9). -/
abbrev Digit := Fin 10

end Sys2Proof
end

