-- ==== Sys2Proof/Syntax.lean ====
section
/-! DEFINITION. The instructions: one constructor per row of spec/opcode_table.json. The first nine are the event kinds of
R70, the next eight the illegal event words of R73, the last nine the bus frames of R76 to R80. -/

namespace Sys2Proof

/-- One row of spec/opcode_table.json each. Operand names are the table's. -/
inductive Instr where
  /-- `DESK_RX b`: one byte received on the desk bus (R110). -/
  | deskRx (b : Byte)
  /-- `REM_RX b`: one byte received on the remote bus (R130). -/
  | remRx (b : Byte)
  /-- `CYCLE`: the movement step of one control cycle (R172). -/
  | cycle
  /-- `MOVE_TO t`: a move request, target in tenths (R170). -/
  | moveTo (t : Tenths)
  /-- `STOP`: cancels movement (R171). -/
  | stop
  /-- `PRESET1`: the preset-1 trigger frame (R152). -/
  | preset1
  /-- `PRESET2`: the preset-2 trigger frame (R153). -/
  | preset2
  /-- `PRESET3`: the preset-3 trigger frame (R154). -/
  | preset3
  /-- `SIM_BTN m`: a button-echo frame for any mask (R155). -/
  | simBtn (m : Byte)
  /-- Reserved opcode 0x0 (R72, R73). -/
  | reservedOp0 (ignored : Operand)
  /-- Reserved opcode 0xA (R72, R73). -/
  | reservedOpA (ignored : Operand)
  /-- Reserved opcode 0xB (R72, R73). -/
  | reservedOpB (ignored : Operand)
  /-- Reserved opcode 0xC (R72, R73). -/
  | reservedOpC (ignored : Operand)
  /-- Reserved opcode 0xD (R72, R73). -/
  | reservedOpD (ignored : Operand)
  /-- Reserved opcode 0xE (R72, R73). -/
  | reservedOpE (ignored : Operand)
  /-- Reserved opcode 0xF (R72, R73). -/
  | reservedOpF (ignored : Operand)
  /-- A word whose `op` selects an event of format B or N and whose must-be-0 bits are not all 0 (R72, R73). -/
  | illegalNonzeroMbz (op : BitVec 4) (opnd : Operand)
  /-- A received 6-byte desk frame `5A H T U Y C` (R77). The supported type is Y = 0x01 (log entry 9). -/
  | deskStatus6 (h t u y c : Byte)
  /-- A received 5-byte desk frame `5A H T U C` (R78). -/
  | deskStatus5 (h t u c : Byte)
  /-- A received remote keypad frame `A5 R M X C` (R79). -/
  | remoteKeys (r m x c : Byte)
  /-- The up drive frame `A5 00 20 DF FF` (R151). -/
  | cmdDriveUp
  /-- The down drive frame `A5 00 40 BF FF` (R151). -/
  | cmdDriveDown
  /-- The preset-1 frame `A5 00 02 FD FF` (R152). -/
  | cmdPreset1
  /-- The preset-2 frame `A5 00 04 FB FF` (R153). -/
  | cmdPreset2
  /-- The preset-3 frame `A5 00 08 F7 FF` (R154). -/
  | cmdPreset3
  /-- The general command frame `A5 00 P Q FF` with `Q = 0xFF - P` (R80, R150). -/
  | cmdButton (p : Byte)
deriving DecidableEq, Repr

/-- What the host can put before the core: an event word on the event channel (R71), or a whole bus frame on one of the
three bus streams of R51, its bytes in transmission order (R52). -/
inductive Offer where
  /-- A 20-bit event word. -/
  | event (w : EventWord)
  /-- A frame received on the desk bus. -/
  | deskFrame (bytes : List Byte)
  /-- A frame received on the remote bus. -/
  | remoteFrame (bytes : List Byte)
  /-- A command frame for the desk transmit stream. -/
  | commandFrame (bytes : List Byte)
deriving DecidableEq, Repr

/-- Why a bus frame is no row of the table. An event word is never refused: every 20-bit word is a row (R72). -/
inductive DecodeError where
  /-- Not `5A` and 4 or 5 further bytes (R77, R78). -/
  | noDeskFrame
  /-- Not `A5` and 4 further bytes (R79). -/
  | noRemoteFrame
  /-- Not `A5 00 P Q FF` with `Q = 0xFF - P` (R80). -/
  | noCommandFrame
deriving DecidableEq, Repr

end Sys2Proof
end

