-- ==== Sys2Proof/WellFormed.lean ====
section
/-! DEFINITION. Which terms of `Instr` stand for an encoding of their own row of spec/opcode_table.json. Operand widths are
in the types; what is left to check is the must-be-0 row's condition and the command payloads that have a row of their own. -/

namespace Sys2Proof

/-- Opcodes of format B: `DESK_RX`, `REM_RX`, `SIM_BTN` (R72). -/
def formatB (op : BitVec 4) : Bool := op = 0x1 || op = 0x2 || op = 0x9

/-- Opcodes of format N: `CYCLE`, `STOP`, `PRESET1` to `PRESET3` (R72). -/
def formatN (op : BitVec 4) : Bool := op = 0x3 || op = 0x5 || op = 0x6 || op = 0x7 || op = 0x8

/-- Command payloads whose frame has a named row of its own (R84, R151 to R154). -/
def namedPayload (p : Byte) : Bool := p = 0x20 || p = 0x40 || p = 0x02 || p = 0x04 || p = 0x08

/-- An instruction is well formed when it stands for an encoding of its row. For `ILLEGAL_NONZERO_MBZ` the row's own
condition must hold (R72, R73); for `CMD_BUTTON` the frame must not be one of the five named command frames (log entry 8). -/
def Instr.wf : Instr → Bool
  | .deskRx _ => true
  | .remRx _ => true
  | .cycle => true
  | .moveTo _ => true
  | .stop => true
  | .preset1 => true
  | .preset2 => true
  | .preset3 => true
  | .simBtn _ => true
  | .reservedOp0 _ => true
  | .reservedOpA _ => true
  | .reservedOpB _ => true
  | .reservedOpC _ => true
  | .reservedOpD _ => true
  | .reservedOpE _ => true
  | .reservedOpF _ => true
  | .illegalNonzeroMbz op opnd =>
      (formatB op && opnd.extractLsb' 8 8 != 0#8) || (formatN op && opnd != 0#16)
  | .deskStatus6 _ _ _ _ _ => true
  | .deskStatus5 _ _ _ _ => true
  | .remoteKeys _ _ _ _ => true
  | .cmdDriveUp => true
  | .cmdDriveDown => true
  | .cmdPreset1 => true
  | .cmdPreset2 => true
  | .cmdPreset3 => true
  | .cmdButton p => !namedPayload p

/-- The rows that are event words (R72), as against the bus-frame rows (R76). -/
def Instr.isEvent : Instr → Bool
  | .deskRx _ => true
  | .remRx _ => true
  | .cycle => true
  | .moveTo _ => true
  | .stop => true
  | .preset1 => true
  | .preset2 => true
  | .preset3 => true
  | .simBtn _ => true
  | .reservedOp0 _ => true
  | .reservedOpA _ => true
  | .reservedOpB _ => true
  | .reservedOpC _ => true
  | .reservedOpD _ => true
  | .reservedOpE _ => true
  | .reservedOpF _ => true
  | .illegalNonzeroMbz _ _ => true
  | .deskStatus6 _ _ _ _ _ => false
  | .deskStatus5 _ _ _ _ => false
  | .remoteKeys _ _ _ _ => false
  | .cmdDriveUp => false
  | .cmdDriveDown => false
  | .cmdPreset1 => false
  | .cmdPreset2 => false
  | .cmdPreset3 => false
  | .cmdButton _ => false

end Sys2Proof
end

