-- ==== Sys2Proof/Decode.lean ====
section
/-! DEFINITION. Decoding of event words (spec/30_encoding.md R70 to R75) and of bus frames (R76 to R80), and the encoder
written from the same tables. Every 20-bit word decodes; bytes that are no bus frame of the table are rejected by name. -/

namespace Sys2Proof

/-- `op = evt_word[19:16]` (R71). -/
def opOf (w : EventWord) : BitVec 4 := w.extractLsb' 16 4

/-- `opnd = evt_word[15:0]` (R71). -/
def opndOf (w : EventWord) : Operand := w.extractLsb' 0 16

/-- `opnd[7:0]`, the byte operand of format B (R74). -/
def byteOf (o : Operand) : Byte := o.extractLsb' 0 8

/-- `opnd[15:8]`, the must-be-0 bits of format B (R71). -/
def mbzOf (o : Operand) : Byte := o.extractLsb' 8 8

/-- Format B: bits 15:8 must be 0, bits 7:0 are the operand (R71). -/
def decodeB (op : BitVec 4) (o : Operand) (event : Byte → Instr) : Instr :=
  if mbzOf o = 0x00 then event (byteOf o) else .illegalNonzeroMbz op o

/-- Format N: bits 15:0 must be 0 (R71). -/
def decodeN (op : BitVec 4) (o : Operand) (event : Instr) : Instr :=
  if o = 0x0000 then event else .illegalNonzeroMbz op o

/-- The opcode map (R72), complete over the 16 values of `op`. -/
def decodeEvent (w : EventWord) : Instr :=
  match opOf w with
  | 0x0#4 => .reservedOp0 (opndOf w)
  | 0x1#4 => decodeB 0x1 (opndOf w) .deskRx
  | 0x2#4 => decodeB 0x2 (opndOf w) .remRx
  | 0x3#4 => decodeN 0x3 (opndOf w) .cycle
  | 0x4#4 => .moveTo (opndOf w)
  | 0x5#4 => decodeN 0x5 (opndOf w) .stop
  | 0x6#4 => decodeN 0x6 (opndOf w) .preset1
  | 0x7#4 => decodeN 0x7 (opndOf w) .preset2
  | 0x8#4 => decodeN 0x8 (opndOf w) .preset3
  | 0x9#4 => decodeB 0x9 (opndOf w) .simBtn
  | 0xA#4 => .reservedOpA (opndOf w)
  | 0xB#4 => .reservedOpB (opndOf w)
  | 0xC#4 => .reservedOpC (opndOf w)
  | 0xD#4 => .reservedOpD (opndOf w)
  | 0xE#4 => .reservedOpE (opndOf w)
  | _ => .reservedOpF (opndOf w)

/-- A frame received on the desk bus: `5A H T U Y C` (R77) or `5A H T U C` (R78). The checksum and the type byte are
operands here; the scanner judges them (R113, R114). -/
def decodeDeskFrame : List Byte → Except DecodeError Instr
  | [s, h, t, u, c] => if s = 0x5A then .ok (.deskStatus5 h t u c) else .error .noDeskFrame
  | [s, h, t, u, y, c] => if s = 0x5A then .ok (.deskStatus6 h t u y c) else .error .noDeskFrame
  | _ => .error .noDeskFrame

/-- A frame received on the remote bus: `A5 R M X C` (R79). -/
def decodeRemoteFrame : List Byte → Except DecodeError Instr
  | [s, r, m, x, c] => if s = 0xA5 then .ok (.remoteKeys r m x c) else .error .noRemoteFrame
  | _ => .error .noRemoteFrame

/-- The command row of a payload byte: the five named payloads of R84 have rows of their own (log entry 8). -/
def commandOf (p : Byte) : Instr :=
  if p = 0x20 then .cmdDriveUp
  else if p = 0x40 then .cmdDriveDown
  else if p = 0x02 then .cmdPreset1
  else if p = 0x04 then .cmdPreset2
  else if p = 0x08 then .cmdPreset3
  else .cmdButton p

/-- A command frame for the desk bus: `A5 00 P Q FF` with `Q = 0xFF - P` (R80). -/
def decodeCommandFrame : List Byte → Except DecodeError Instr
  | [s, z, p, q, e] =>
      if s = 0xA5 ∧ z = 0x00 ∧ q = 0xFF - p ∧ e = 0xFF then .ok (commandOf p) else .error .noCommandFrame
  | _ => .error .noCommandFrame

/-- The decoder, total over every event word and every byte sequence. -/
def decode : Offer → Except DecodeError Instr
  | .event w => .ok (decodeEvent w)
  | .deskFrame bs => decodeDeskFrame bs
  | .remoteFrame bs => decodeRemoteFrame bs
  | .commandFrame bs => decodeCommandFrame bs

/-- `(op << 16) | operand` (R86). -/
def eventWord (op : BitVec 4) (o : Operand) : EventWord := op ++ o

/-- A format B operand field: must-be-0 bits, then the byte (R71). -/
def operandB (b : Byte) : Operand := (0x00#8) ++ b

/-- The five bytes `A5 00 P Q FF` with `Q = 0xFF - P` (R80). -/
def commandBytes (p : Byte) : List Byte := [0xA5, 0x00, p, 0xFF - p, 0xFF]

/-- The encoding of an instruction, from the tables of R72 and R76 to R80. -/
def encode : Instr → Offer
  | .deskRx b => .event (eventWord 0x1 (operandB b))
  | .remRx b => .event (eventWord 0x2 (operandB b))
  | .cycle => .event (eventWord 0x3 0x0000)
  | .moveTo t => .event (eventWord 0x4 t)
  | .stop => .event (eventWord 0x5 0x0000)
  | .preset1 => .event (eventWord 0x6 0x0000)
  | .preset2 => .event (eventWord 0x7 0x0000)
  | .preset3 => .event (eventWord 0x8 0x0000)
  | .simBtn m => .event (eventWord 0x9 (operandB m))
  | .reservedOp0 o => .event (eventWord 0x0 o)
  | .reservedOpA o => .event (eventWord 0xA o)
  | .reservedOpB o => .event (eventWord 0xB o)
  | .reservedOpC o => .event (eventWord 0xC o)
  | .reservedOpD o => .event (eventWord 0xD o)
  | .reservedOpE o => .event (eventWord 0xE o)
  | .reservedOpF o => .event (eventWord 0xF o)
  | .illegalNonzeroMbz op o => .event (eventWord op o)
  | .deskStatus6 h t u y c => .deskFrame [0x5A, h, t, u, y, c]
  | .deskStatus5 h t u c => .deskFrame [0x5A, h, t, u, c]
  | .remoteKeys r m x c => .remoteFrame [0xA5, r, m, x, c]
  | .cmdDriveUp => .commandFrame (commandBytes 0x20)
  | .cmdDriveDown => .commandFrame (commandBytes 0x40)
  | .cmdPreset1 => .commandFrame (commandBytes 0x02)
  | .cmdPreset2 => .commandFrame (commandBytes 0x04)
  | .cmdPreset3 => .commandFrame (commandBytes 0x08)
  | .cmdButton p => .commandFrame (commandBytes p)

/-- The `n` bytes of a number as the table numbers a frame's bits: the first byte transmitted is the most significant
(spec/opcode_table.json, "space"; log entry 20). -/
def frameBytes (n w : Nat) : List Byte :=
  (List.range n).map fun k => BitVec.ofNat 8 (w >>> (8 * (n - 1 - k)))

/-- The bus a 5- or 6-byte frame of the table belongs to. `5A` starts a desk frame (R76). `A5` starts both remote and command
frames; bytes of the shape `A5 00 P Q FF` with `Q = 0xFF - P` are read as a command frame (log entry 8). -/
def frameOffer (bs : List Byte) : Offer :=
  if bs.head? = some 0x5A then .deskFrame bs
  else if (decodeCommandFrame bs).isOk then .commandFrame bs
  else .remoteFrame bs

/-- What an instruction's bits, numbered as spec/opcode_table.json numbers them, put before the core: a 20-bit event word
(in 3 whole bytes, the bits above 19 zero), or a frame of 5 or 6 bytes. -/
def tableOffer (nbits w : Nat) : Option Offer :=
  if nbits = 20 ∨ nbits = 24 then
    if w < 2 ^ 20 then some (.event (BitVec.ofNat 20 w)) else none
  else if nbits = 40 ∧ w < 2 ^ 40 then some (frameOffer (frameBytes 5 w))
  else if nbits = 48 ∧ w < 2 ^ 48 then some (frameOffer (frameBytes 6 w))
  else none

/-- The instruction the decoder reads from the bits `w` of a row of the table. -/
def decodeTableWord (nbits w : Nat) : Option Instr :=
  (tableOffer nbits w).bind fun o => (decode o).toOption

end Sys2Proof
end

