-- ==== Sys2Proof/Config.lean ====
section
/-! DEFINITION. The implementation parameters of spec/00_scope.md R8: what a configuration is and which ones are legal.
They are plain data held beside the state, so every statement about all states is about all configurations. No rule of the
spec leaves the result of an event open, so there is no opaque free value here. -/

namespace Sys2Proof

/-- `MSG_LEN`, the desk frame length: 5 or 6 and nothing else (R8; 92 D10). -/
inductive MsgLen where
  /-- Length-5 desk frames (R78). -/
  | five
  /-- Length-6 desk frames (R77). -/
  | six
deriving DecidableEq, Repr

/-- `SEG_TABLE`: the 7-bit pattern of each digit 0 to 9 (R8, R101). -/
abbrev SegTable := Vector (BitVec 7) 10

/-- The configuration: register S0 (R33) and the parameter `SEG_TABLE` (R8). -/
structure Cfg where
  /-- `MSG_LEN`, S0[2:0]. -/
  msgLen : MsgLen
  /-- `DESK_PRESENT`, S0[3]. -/
  deskPresent : Bool
  /-- `REMOTE_PRESENT`, S0[4]. -/
  remotePresent : Bool
  /-- `SEG_TABLE`, fixed for the machine (R222). -/
  segTable : SegTable
deriving DecidableEq, Repr

/-- A legal `SEG_TABLE` is injective and has the three entries the source gives: 7, 2 and 5 (R8, R101). -/
def SegTable.legal (tbl : SegTable) : Bool :=
  decide (∀ i j : Digit, tbl[i] = tbl[j] → i = j) && tbl[7] == 0x07 && tbl[2] == 0x5B && tbl[5] == 0x6D

end Sys2Proof
end

