-- ==== Sys2Proof/Machine/SegTable.lean ====
section
/-! DEFINITION. The default values of the parameters (spec/00_scope.md R8). -/

namespace Sys2Proof.Machine

/-- The default `SEG_TABLE` of R101. Digits 2, 5 and 7 are the source's; the other seven are PRESUMED (the spec took them
from general knowledge, 93 G1): log entry 1, unsafe for a claim that rests on one of the seven. -/
def defaultSegTable : SegTable :=
  #v[0x3F, 0x06, 0x5B, 0x4F, 0x66, 0x6D, 0x7D, 0x07, 0x7F, 0x6F]

/-- The default configuration of R8: `MSG_LEN` 6 and both transports present. -/
def defaultCfg : Cfg := ⟨.six, true, true, defaultSegTable⟩

end Sys2Proof.Machine
end

