-- ==== Sys2Proof/Machine/State.lean ====
section
/-! DEFINITION. The state of the desk-bus frame core (spec/10_state.md R21, R33), its output channel (R36) and the host's
coming inputs (R34, R35), all as plain data; the reasons a step can stop; and the state after reset (spec/70_reset_and_hazards.md R220). -/

namespace Sys2Proof.Machine

/-- A scanner's phase, 1 bit (R21). -/
inductive Phase where
  /-- 0: discarding bytes until a start byte. -/
  | searching
  /-- 1: taking every byte as part of the current frame. -/
  | accumulating
deriving DecidableEq, Repr

/-- `mv_state`, 2 bits (R21). The value 3 is never written and a model refuses it (R26); here it cannot be built (log entry 11). -/
inductive MvState where
  /-- 0. -/
  | idle
  /-- 1. -/
  | raising
  /-- 2. -/
  | lowering
deriving DecidableEq, Repr

/-- An output event (R12). -/
inductive OutEvent where
  /-- `Tx(b)`: byte `b` goes to the desk bus. -/
  | tx (b : Byte)
  /-- `HeightPub(h)`: a height in tenths is published. -/
  | heightPub (h : Tenths)
  /-- `ButtonPub(u, d, m1, m2, m3)`: the five button booleans are published. -/
  | buttonPub (u d m1 m2 m3 : Bool)
  /-- `Diag(code)`: a diagnostic; it carries a 2-bit code and nothing else (R201). -/
  | diag (code : BitVec 2)
deriving DecidableEq, Repr

/-- The input pins at one rising edge of `clk` (R34). -/
structure Pins where
  /-- `rst`, synchronous, active high. -/
  rst : Bool
  /-- `cfg_msg_len`, sampled while `rst` is high. -/
  cfgMsgLen : BitVec 3
  /-- `cfg_desk_present`, sampled while `rst` is high. -/
  cfgDeskPresent : Bool
  /-- `cfg_remote_present`, sampled while `rst` is high. -/
  cfgRemotePresent : Bool
  /-- `evt_valid`: an event word is offered. -/
  evtValid : Bool
  /-- `evt_word`. -/
  evtWord : EventWord
  /-- `out_ready`: the receiver takes the offered output event. -/
  outReady : Bool
deriving DecidableEq, Repr

/-- One coming input of the host. `edge` is one rising clock edge with its pins (R34, R239). `offer` is a transaction: the host
holds one event word, or one whole bus frame, with `out_ready` high, until the core takes it (log entries 5 and 6). -/
inductive HostInput where
  /-- One clock edge. -/
  | edge (p : Pins)
  /-- One transaction. -/
  | offer (o : Offer)
deriving DecidableEq, Repr

/-- Why the machine stops. The core itself has no fault (R200). -/
inductive Fault where
  /-- Raised by an append to `dbuf` when `dcnt` is 5 or more: there is no such register (R29). Only a state outside the
  invariant R24 raises it, and no step reaches one. Safe: the model stops where the spec gives no behaviour (log entry 10). -/
  | deskIndexOutOfFile
deriving DecidableEq, Repr

/-- Why the model has no run. -/
inductive Refusal where
  /-- Raised by an arm of `exec` whose instruction has no meaning yet; no arm is left so. Safe. -/
  | notModelled (mnemonic : String)
  /-- Raised by a reset edge whose `cfg_msg_len` is neither 5 nor 6: the spec refuses that configuration and the model has no
  run for it (R38; 92 D10). Safe (log entry 12). -/
  | badMsgLen (bits : BitVec 3)
  /-- Raised by a frame transaction whose bytes are no bus frame of the table (R76 to R80). The same bytes can be offered one
  by one as events. Safe (log entry 21). -/
  | notAFrame (why : DecodeError)
deriving DecidableEq, Repr

/-- The state. The first sixteen fields are the elements of R21, with its names; `cfg` is S0 and `SEG_TABLE` (R8, R33); `out` is
the output channel's pending events (R36, R57, R220); `taken` and `host` are the model's own (log entries 3 and 4). -/
structure State where
  /-- `dphase`. -/
  dphase : Phase
  /-- `dcnt`: number of bytes in `dbuf`. -/
  dcnt : BitVec 3
  /-- `dbuf[0..4]`: desk frame bytes after the start byte (R29). -/
  dbuf : Vector Byte 5
  /-- `rphase`. -/
  rphase : Phase
  /-- `rcnt`: number of payload bytes in `rbuf`. -/
  rcnt : BitVec 2
  /-- `rbuf[0..2]`: remote payload bytes (R30). -/
  rbuf : Vector Byte 3
  /-- `mv_state`. -/
  mvState : MvState
  /-- `tgt_pos`: the target, in tenths. -/
  tgtPos : Tenths
  /-- `cur_pos`: the last accepted reading, in tenths. -/
  curPos : Tenths
  /-- `pos_known`: a reading has been accepted since reset (R28). -/
  posKnown : Bool
  /-- `btn_up`. -/
  btnUp : Bool
  /-- `btn_down`. -/
  btnDown : Bool
  /-- `btn_m1`. -/
  btnM1 : Bool
  /-- `btn_m2`. -/
  btnM2 : Bool
  /-- `btn_m3`. -/
  btnM3 : Bool
  /-- `ill`: sticky, an illegal event word was received (R28). -/
  ill : Bool
  /-- The configuration, fixed from one reset to the next (R222). -/
  cfg : Cfg
  /-- Output events emitted and not yet taken, oldest first. -/
  out : List OutEvent
  /-- Output events the host has taken, oldest first. A record: no rule reads it. -/
  taken : List OutEvent
  /-- The host's coming inputs, next first. -/
  host : List HostInput
deriving DecidableEq, Repr

/-- What a meaning answers. -/
abbrev Result := Host.Outcome State Fault Refusal

/-- Every element at its reset value (R21, R220), with a configuration, a record and a host script given from outside. -/
def State.resetWith (cfg : Cfg) (taken : List OutEvent) (host : List HostInput) : State where
  dphase := .searching
  dcnt := 0
  dbuf := #v[0x00, 0x00, 0x00, 0x00, 0x00]
  rphase := .searching
  rcnt := 0
  rbuf := #v[0x00, 0x00, 0x00]
  mvState := .idle
  tgtPos := 0
  curPos := 0
  posKnown := false
  btnUp := false
  btnDown := false
  btnM1 := false
  btnM2 := false
  btnM3 := false
  ill := false
  cfg := cfg
  out := []
  taken := taken
  host := host

/-- The machine right after reset with the default configuration of R8 (log entry 2); no input is placed (log entry 3). -/
def State.reset : State := State.resetWith defaultCfg [] []

end Sys2Proof.Machine
end

