-- ==== Sys2Proof/Machine/Flags.lean ====
section
/-! DEFINITION. The two status flags of spec/10_state.md R28. The core has no condition codes or arithmetic flags. -/

namespace Sys2Proof.Machine

/-- `pos_known <- 1`: only an accepted desk reading sets it, only reset clears it (R28, R114). -/
def setPosKnown (s : State) : State := { s with posKnown := true }

/-- `ill <- 1`: an illegal event word sets it, only reset clears it (R28, R73). -/
def setIll (s : State) : State := { s with ill := true }

end Sys2Proof.Machine
end

