-- ==== Sys2Proof/Machine/Operands.lean ====
section
/-! DEFINITION. The operand forms: the arithmetic of frame bytes that the meanings share. Checksums (spec/00_scope.md R11),
segment bytes (30_encoding.md R82, 40_seven_segment.md R102), height readings (41_desk_scanner.md R114), button masks (R83),
and the bytes of a command frame (43_command_encoder.md R150). All are functions of their operands alone. -/

namespace Sys2Proof.Machine

/-- `MSG_LEN` as a number (R8). -/
def msgLenNat : MsgLen → Nat
  | .five => 5
  | .six => 6

/-- The exact sum of some bytes (R11). -/
def byteSum : List Byte → Nat
  | [] => 0
  | b :: bs => b.toNat + byteSum bs

/-- The 8-bit truncated sum, `Σ mod 256` (R9, R76). -/
def checksum (bs : List Byte) : Byte := BitVec.ofNat 8 (byteSum bs)

/-- Bits 6:0 of a segment byte, the segment pattern (R82). -/
def segPattern (b : Byte) : BitVec 7 := b.extractLsb' 0 7

/-- Bit 7 of a segment byte, the decimal-point flag (R82). -/
def decimalPoint (b : Byte) : Bool := b.getLsbD 7

/-- `SEGDEC(b)`: the digit whose pattern is bits 6:0 of `b`, or `none` for INVALID (R102). A legal table is injective, so the
digit is unique; for a table outside R8 the lowest such digit is taken (log entry 16). -/
def segdec (tbl : SegTable) (b : Byte) : Option Digit :=
  (List.finRange 10).find? fun d => tbl[d] == segPattern b

/-- `raw <- 100*d0 + 10*d1 + d2` (R114). -/
def rawReading (d0 d1 d2 : Digit) : Nat := 100 * d0.val + 10 * d1.val + d2.val

/-- The reading in tenths: `raw` with the decimal point, `10 * raw` without (R114). -/
def tenths (point : Bool) (raw : Nat) : Tenths :=
  if point then BitVec.ofNat 16 raw else BitVec.ofNat 16 (10 * raw)

/-- The three segment bytes decoded and composed, or `none` when a digit is INVALID (R114). The decimal point is the tens
byte's bit 7 alone (R103). -/
def segReading (tbl : SegTable) (h t u : Byte) : Option Tenths :=
  match segdec tbl h, segdec tbl t, segdec tbl u with
  | some d0, some d1, some d2 => some (tenths (decimalPoint t) (rawReading d0 d1 d2))
  | _, _, _ => none

/-- `m[5]`, UP = 0x20 (R83). -/
def maskUp (m : Byte) : Bool := m.getLsbD 5

/-- `m[6]`, DOWN = 0x40 (R83). -/
def maskDown (m : Byte) : Bool := m.getLsbD 6

/-- `m[1]`, MEMORY1 = 0x02 (R83). -/
def maskM1 (m : Byte) : Bool := m.getLsbD 1

/-- `m[2]`, MEMORY2 = 0x04 (R83). -/
def maskM2 (m : Byte) : Bool := m.getLsbD 2

/-- `m[3]`, MEMORY3 = 0x08 (R83). -/
def maskM3 (m : Byte) : Bool := m.getLsbD 3

/-- `ENC(P)` (R150). -/
def enc (p : Byte) : List Byte := [0xA5, 0x00, p, 0xFF - p, 0xFF]

/-- The drive code for up (R151). -/
abbrev driveUp : Byte := 0x20

/-- The drive code for down (R151). -/
abbrev driveDown : Byte := 0x40

/-- The preset-1 mask (R152). -/
abbrev presetMask1 : Byte := 0x02

/-- The preset-2 mask (R153). -/
abbrev presetMask2 : Byte := 0x04

/-- The preset-3 mask (R154). -/
abbrev presetMask3 : Byte := 0x08

/-- The start byte of desk status frames (R76). -/
abbrev deskStart : Byte := 0x5A

/-- The start byte of remote frames and of command frames (R76). -/
abbrev remoteStart : Byte := 0xA5

/-- The supported desk type byte (R77). -/
abbrev deskType : Byte := 0x01

end Sys2Proof.Machine
end

