-- ==== Sys2Proof/Machine/Ops.lean ====
section
/-! DEFINITION. The operations the meanings share: output events (spec/00_scope.md R11, R12), command frames, the core's error
reports (60_exceptions.md R200, R201, in place of exceptions: the core has no trap entry and no return, R206, R207), and the
resets of the two scanners (R115, R135). -/

namespace Sys2Proof.Machine

/-- Goes on with `f` from the state a result answers; a fault or refusal ends the run. -/
def andThen (r : Result) (f : State → Result) : Result :=
  match r with
  | .next s => f s
  | .fault e => .fault e
  | .refused e => .refused e

/-- `emit E`: appends output events to the step's output list, in order (R11, R12). -/
def emitAll (es : List OutEvent) (s : State) : State := { s with out := s.out ++ es }

/-- `emit E` for one event. -/
def emit (e : OutEvent) (s : State) : State := emitAll [e] s

/-- `report Diag(code)`: what the core does with an error it does not pass over in silence (R201). It changes no state element
and does not end the step. -/
def report (code : BitVec 2) (s : State) : State := emit (.diag code) s

/-- The `Tx` events of a command frame, five in order (R11). -/
def frameEvents (p : Byte) : List OutEvent := (enc p).map .tx

/-- `TxFrame(P)`: sends the command frame of `P` when the desk transport is present (R11). -/
def txFrame (p : Byte) (s : State) : State :=
  if s.cfg.deskPresent then emitAll (frameEvents p) s else s

/-- `ILLEGAL(w)`: the one handling of every illegal event word (R73). -/
def illegalWord (s : State) : State := report 3 (setIll s)

/-- `DESK_RESYNC` (R115): clears the desk buffer (R23) and returns to SEARCHING. -/
def deskResync (s : State) : State :=
  { s with dphase := .searching, dcnt := 0, dbuf := #v[0x00, 0x00, 0x00, 0x00, 0x00] }

/-- `REM_RESYNC` (R135): clears the remote buffer (R23) and returns to SEARCHING. -/
def remResync (s : State) : State :=
  { s with rphase := .searching, rcnt := 0, rbuf := #v[0x00, 0x00, 0x00] }

/-- `dbuf[dcnt] <- b` and `dcnt <- dcnt + 1` (R112). -/
def deskAppend (b : Byte) (s : State) : State :=
  { s with dbuf := s.dbuf.setIfInBounds s.dcnt.toNat b, dcnt := s.dcnt + 1 }

/-- `rbuf[rcnt] <- b` and `rcnt <- rcnt + 1` (R131). -/
def remAppend (b : Byte) (s : State) : State :=
  { s with rbuf := s.rbuf.setIfInBounds s.rcnt.toNat b, rcnt := s.rcnt + 1 }

/-- The host takes everything pending, in order (R36). -/
def takeAll (s : State) : State := { s with out := [], taken := s.taken ++ s.out }

/-- Runs one receive event for each byte of a sequence, in order, until one does not answer a next state. Before each byte the
host takes every output of the step before it: the core does not take a new event while one waits (R57, R239; log entry 6). -/
def forBytes (f : Byte → State → Result) : List Byte → State → Result
  | [], s => .next s
  | b :: bs, s => andThen (f b (takeAll s)) (forBytes f bs)

end Sys2Proof.Machine
end

