-- ==== Sys2Proof/Machine/Channel.lean ====
section
/-! DEFINITION. The ready/valid channels and the reset input (spec/10_state.md R36, R38; 70_reset_and_hazards.md R220, R239). -/

namespace Sys2Proof.Machine

/-- `cfg_msg_len` as a `MSG_LEN` (R33, S0[2:0]): 5 and 6 are legal, any other value is refused (R38). -/
def msgLenOfBits (b : BitVec 3) : Option MsgLen :=
  if b = 5 then some .five else if b = 6 then some .six else none

/-- A reset edge (R38, R220): every element to its reset value, S0 from the pins, pending outputs discarded, none emitted.
`SEG_TABLE` never changes (R222); the record and the host's script are not the core's. -/
def resetEdge (p : Pins) (s : State) : Result :=
  match msgLenOfBits p.cfgMsgLen with
  | some n => .next (State.resetWith ⟨n, p.cfgDeskPresent, p.cfgRemotePresent, s.cfg.segTable⟩ s.taken s.host)
  | none => .refused (.badMsgLen p.cfgMsgLen)

/-- The host takes the oldest pending output event (R36, R239). -/
def takeOutput (s : State) : State :=
  match s.out with
  | [] => s
  | e :: es => { s with out := es, taken := s.taken ++ [e] }

/-- `evt_ready`: high exactly when no output event of an earlier step is still waiting (R239). -/
def evtReady (s : State) : Bool := s.out.isEmpty

end Sys2Proof.Machine
end

