-- ==== Sys2Proof/Machine/Command.lean ====
section
/-! DEFINITION. CommandEncoder's entry points: the preset and simulated-button events (spec/43_command_encoder.md R152 to
R155) and the command-frame rows of the opcode table, whose meaning is that the frame is sent (R80, R150, R151; log entry 7).
None reads or changes `mv_state` or the buttons. -/

namespace Sys2Proof.Machine

/-- `PRESET1` (R152). -/
def execPreset1 (s : State) : Result := .next (txFrame presetMask1 s)

/-- `PRESET2` (R153). -/
def execPreset2 (s : State) : Result := .next (txFrame presetMask2 s)

/-- `PRESET3` (R154). -/
def execPreset3 (s : State) : Result := .next (txFrame presetMask3 s)

/-- `SIM_BTN m` (R155): every mask is legal. -/
def execSimBtn (m : Byte) (s : State) : Result := .next (txFrame m s)

/-- `CMD_DRIVE_UP` (R151). -/
def execCmdDriveUp (s : State) : Result := .next (txFrame driveUp s)

/-- `CMD_DRIVE_DOWN` (R151). -/
def execCmdDriveDown (s : State) : Result := .next (txFrame driveDown s)

/-- `CMD_PRESET1` (R152). -/
def execCmdPreset1 (s : State) : Result := .next (txFrame presetMask1 s)

/-- `CMD_PRESET2` (R153). -/
def execCmdPreset2 (s : State) : Result := .next (txFrame presetMask2 s)

/-- `CMD_PRESET3` (R154). -/
def execCmdPreset3 (s : State) : Result := .next (txFrame presetMask3 s)

/-- `CMD_BUTTON` with payload `p` (R150). -/
def execCmdButton (p : Byte) (s : State) : Result := .next (txFrame p s)

end Sys2Proof.Machine
end

