-- ==== Sys2Proof/Machine/Desk.lean ====
section
/-! DEFINITION. DeskFrameDecoder, the desk status scanner (spec/41_desk_scanner.md R110 to R118). -/

namespace Sys2Proof.Machine

/-- The Searching phase (R111): a start byte opens an empty buffer; any other byte is discarded. -/
def deskSearch (b : Byte) (s : State) : State :=
  if b = deskStart then { s with dphase := .accumulating, dcnt := 0 } else s

/-- The checksum over the first `MSG_LEN - 2` bytes of the buffer (R113). -/
def deskSum (s : State) : Byte := checksum (s.dbuf.toList.take (msgLenNat s.cfg.msgLen - 2))

/-- The byte at index `MSG_LEN - 2`, the received checksum (R113). -/
def deskCheckByte (s : State) : Byte :=
  match s.cfg.msgLen with
  | .five => s.dbuf[3]
  | .six => s.dbuf[4]

/-- The reading of a checksum-correct buffer, or `none` when one of the three checks of R114 discards it: the type byte, the
blank display, the three digits. -/
def deskReading (s : State) : Option Tenths :=
  if s.cfg.msgLen = .six ∧ s.dbuf[3] ≠ deskType then none
  else if s.dbuf[0] = 0x00 ∧ s.dbuf[1] = 0x00 ∧ s.dbuf[2] = 0x00 then none
  else segReading s.cfg.segTable s.dbuf[0] s.dbuf[1] s.dbuf[2]

/-- An accepted reading (R114): published when it is the first or differs from `cur_pos`, then it becomes `cur_pos`. -/
def acceptReading (h : Tenths) (s : State) : State :=
  let published := if s.posKnown = false ∨ h ≠ s.curPos then emit (.heightPub h) s else s
  setPosKnown { published with curPos := h }

/-- Interpretation (R114): a failed check discards the frame in silence. -/
def deskInterpret (s : State) : State :=
  match deskReading s with
  | some h => acceptReading h s
  | none => s

/-- Validation (R113), interpretation (R114) and, whatever the outcome, the resync (R115). -/
def deskFrame (s : State) : State :=
  deskResync (if deskSum s ≠ deskCheckByte s then report 1 s else deskInterpret s)

/-- The Accumulating phase (R112): every byte is stored, 0x5A too (R116); the byte that fills the buffer finishes the frame
in the same step. A count with no register behind it is outside R24 (log entry 10). -/
def deskAccum (b : Byte) (s : State) : Result :=
  if s.dcnt.toNat < 5 then
    if s.dcnt.toNat + 1 < msgLenNat s.cfg.msgLen - 1 then .next (deskAppend b s)
    else .next (deskFrame (deskAppend b s))
  else .fault .deskIndexOutOfFile

/-- One desk-bus byte (R110): a silent no-op without the desk transport, else the phase decides. -/
def deskByte (b : Byte) (s : State) : Result :=
  if s.cfg.deskPresent then
    match s.dphase with
    | .searching => .next (deskSearch b s)
    | .accumulating => deskAccum b s
  else .next s

/-- `DESK_RX b` (R110). -/
def execDeskRx (b : Byte) (s : State) : Result := deskByte b s

/-- `DESK_STATUS6`: the six bytes `5A H T U Y C` arrive on the desk bus in order, each when no output waits (R77, R87, R57;
log entry 6). -/
def execDeskStatus6 (h t u y c : Byte) (s : State) : Result :=
  forBytes deskByte [deskStart, h, t, u, y, c] s

/-- `DESK_STATUS5`: the five bytes `5A H T U C` arrive on the desk bus in order, each when no output waits (R78, R87, R57;
log entry 6). -/
def execDeskStatus5 (h t u c : Byte) (s : State) : Result :=
  forBytes deskByte [deskStart, h, t, u, c] s

end Sys2Proof.Machine
end

