-- ==== Sys2Proof/Machine/Illegal.lean ====
section
/-! DEFINITION. The illegal event words (spec/30_encoding.md R73): reserved opcodes and nonzero must-be-0 bits. The word is taken,
`ill` is set, `Diag(3)` is emitted and nothing else changes. The operand bits are ignored. -/

namespace Sys2Proof.Machine

/-- `RESERVED_OP_0` (R73). -/
def execReservedOp0 (_ignored : Operand) (s : State) : Result := .next (illegalWord s)

/-- `RESERVED_OP_A` (R73). -/
def execReservedOpA (_ignored : Operand) (s : State) : Result := .next (illegalWord s)

/-- `RESERVED_OP_B` (R73). -/
def execReservedOpB (_ignored : Operand) (s : State) : Result := .next (illegalWord s)

/-- `RESERVED_OP_C` (R73). -/
def execReservedOpC (_ignored : Operand) (s : State) : Result := .next (illegalWord s)

/-- `RESERVED_OP_D` (R73). -/
def execReservedOpD (_ignored : Operand) (s : State) : Result := .next (illegalWord s)

/-- `RESERVED_OP_E` (R73). -/
def execReservedOpE (_ignored : Operand) (s : State) : Result := .next (illegalWord s)

/-- `RESERVED_OP_F` (R73). -/
def execReservedOpF (_ignored : Operand) (s : State) : Result := .next (illegalWord s)

/-- `ILLEGAL_NONZERO_MBZ` (R73): the event its opcode selects does not run. -/
def execIllegalNonzeroMbz (_op : BitVec 4) (_opnd : Operand) (s : State) : Result := .next (illegalWord s)

end Sys2Proof.Machine
end

