-- ==== Sys2Proof/Machine/Movement.lean ====
section
/-! DEFINITION. MovementController (spec/44_movement.md R170 to R176). -/

namespace Sys2Proof.Machine

/-- The direction of a move request: RAISING when the target is above `cur_pos`, else LOWERING (R170); unsigned, 16 bits. -/
def direction (t cur : Tenths) : MvState := if cur < t then .raising else .lowering

/-- `MOVE_TO t` (R170): dropped without the desk transport; else the target and the direction are set and no frame is sent. -/
def execMoveTo (t : Tenths) (s : State) : Result :=
  if s.cfg.deskPresent then .next { s with tgtPos := t, mvState := direction t s.curPos } else .next s

/-- `STOP` (R171): IDLE unconditionally; the target keeps its value and no frame is sent. -/
def execStop (s : State) : Result := .next { s with mvState := .idle }

/-- `CYCLE` (R172): while moving, IDLE when the target is reached, else one drive frame. -/
def execCycle (s : State) : Result :=
  match s.mvState with
  | .idle => .next s
  | .raising => if s.tgtPos ≤ s.curPos then .next { s with mvState := .idle } else .next (txFrame driveUp s)
  | .lowering => if s.curPos ≤ s.tgtPos then .next { s with mvState := .idle } else .next (txFrame driveDown s)

end Sys2Proof.Machine
end

