-- ==== Sys2Proof/Machine/Remote.lean ====
section
/-! DEFINITION. RemoteFrameDecoder and Bridge (spec/42_remote_scanner.md R130 to R137). -/

namespace Sys2Proof.Machine

/-- The bridge (R134): the raw byte goes to the desk bus at once, when there is one. -/
def bridge (b : Byte) (s : State) : State :=
  if s.cfg.deskPresent then emit (.tx b) s else s

/-- The five button outputs from a mask (R83, R133). -/
def setButtons (m : Byte) (s : State) : State :=
  { s with btnUp := maskUp m, btnDown := maskDown m, btnM1 := maskM1 m, btnM2 := maskM2 m, btnM3 := maskM3 m }

/-- The publication of the five button outputs as they stand (R133). -/
def publishButtons (s : State) : State :=
  emit (.buttonPub s.btnUp s.btnDown s.btnM1 s.btnM2 s.btnM3) s

/-- A valid remote frame (R133): the outputs are set and published, and the whole mask is echoed when not moving (R156). -/
def remAccept (m : Byte) (s : State) : State :=
  let published := publishButtons (setButtons m s)
  if s.mvState = .idle then txFrame m published else published

/-- The checksum byte (R132), and whatever the outcome the resync (R135). -/
def remCheck (c : Byte) (s : State) : State :=
  remResync (if checksum [s.rbuf[0], s.rbuf[1], s.rbuf[2]] ≠ c then report 2 s else remAccept s.rbuf[1] s)

/-- The Accumulating phase (R131): three payload bytes, then the checksum byte; 0xA5 is like any other (R136). -/
def remAccum (b : Byte) (s : State) : State :=
  if s.rcnt.toNat < 3 then remAppend b s else remCheck b s

/-- The Searching phase (R130): a start byte opens an empty buffer; any other byte is discarded. -/
def remSearch (b : Byte) (s : State) : State :=
  if b = remoteStart then { s with rphase := .accumulating, rcnt := 0 } else s

/-- The scanner's part of one remote byte, after the bridge (R130). -/
def remScan (b : Byte) (s : State) : State :=
  match s.rphase with
  | .searching => remSearch b s
  | .accumulating => remAccum b s

/-- One remote-bus byte (R130): a silent no-op without the remote transport, else the bridge first, then the scanner. -/
def remByte (b : Byte) (s : State) : Result :=
  if s.cfg.remotePresent then .next (remScan b (bridge b s)) else .next s

/-- `REM_RX b` (R130). -/
def execRemRx (b : Byte) (s : State) : Result := remByte b s

/-- `REMOTE_KEYS`: the five bytes `A5 R M X C` arrive on the remote bus in order, each when no output waits (R79, R87, R57;
log entry 6). -/
def execRemoteKeys (r m x c : Byte) (s : State) : Result :=
  forBytes remByte [remoteStart, r, m, x, c] s

end Sys2Proof.Machine
end

