-- ==== Sys2Proof/Machine/Dispatch.lean ====
section
/-! DEFINITION. One event of the core (spec/00_scope.md R12): one arm per row of spec/opcode_table.json. -/

namespace Sys2Proof.Machine

def exec (i : Instr) (s : State) : Host.Outcome State Fault Refusal :=
  match i with
  | .deskRx b => Sys2Proof.Machine.execDeskRx b s
  | .remRx b => Sys2Proof.Machine.execRemRx b s
  | .cycle => Sys2Proof.Machine.execCycle s
  | .moveTo t => Sys2Proof.Machine.execMoveTo t s
  | .stop => Sys2Proof.Machine.execStop s
  | .preset1 => Sys2Proof.Machine.execPreset1 s
  | .preset2 => Sys2Proof.Machine.execPreset2 s
  | .preset3 => Sys2Proof.Machine.execPreset3 s
  | .simBtn m => Sys2Proof.Machine.execSimBtn m s
  | .reservedOp0 ignored => Sys2Proof.Machine.execReservedOp0 ignored s
  | .reservedOpA ignored => Sys2Proof.Machine.execReservedOpA ignored s
  | .reservedOpB ignored => Sys2Proof.Machine.execReservedOpB ignored s
  | .reservedOpC ignored => Sys2Proof.Machine.execReservedOpC ignored s
  | .reservedOpD ignored => Sys2Proof.Machine.execReservedOpD ignored s
  | .reservedOpE ignored => Sys2Proof.Machine.execReservedOpE ignored s
  | .reservedOpF ignored => Sys2Proof.Machine.execReservedOpF ignored s
  | .illegalNonzeroMbz op opnd => Sys2Proof.Machine.execIllegalNonzeroMbz op opnd s
  | .deskStatus6 h t u y c => Sys2Proof.Machine.execDeskStatus6 h t u y c s
  | .deskStatus5 h t u c => Sys2Proof.Machine.execDeskStatus5 h t u c s
  | .remoteKeys r m x c => Sys2Proof.Machine.execRemoteKeys r m x c s
  | .cmdDriveUp => Sys2Proof.Machine.execCmdDriveUp s
  | .cmdDriveDown => Sys2Proof.Machine.execCmdDriveDown s
  | .cmdPreset1 => Sys2Proof.Machine.execCmdPreset1 s
  | .cmdPreset2 => Sys2Proof.Machine.execCmdPreset2 s
  | .cmdPreset3 => Sys2Proof.Machine.execCmdPreset3 s
  | .cmdButton p => Sys2Proof.Machine.execCmdButton p s

end Sys2Proof.Machine
end

