-- ==== Sys2Proof/Machine/Step.lean ====
section
/-! DEFINITION. One step: one rising clock edge (spec/70_reset_and_hazards.md R239), or one transaction of a host that holds its
word or frame until it is taken (log entries 5 and 6). -/

namespace Sys2Proof.Machine

/-- The core takes an offered word or frame and runs it whole (R12, R56). -/
def runOffer (o : Offer) (s : State) : Result :=
  match decode o with
  | .ok i => exec i s
  | .error e => .refused (.notAFrame e)

/-- One rising edge of `clk` with the pins `p`, the edge already removed from the script (R38, R239). -/
def clockEdge (p : Pins) (s : State) : Result :=
  if p.rst then resetEdge p s
  else if evtReady s then
    if p.evtValid then runOffer (.event p.evtWord) s else .next s
  else if p.outReady then .next (takeOutput s)
  else .next s

/-- The machine's step. With no input the state holds (R214). A transaction first waits while outputs are pending, the host
taking one a step, and is then run (R36, R57). -/
def step (s : State) : Host.Outcome State Fault Refusal :=
  match s.host with
  | [] => .next s
  | .edge p :: rest => clockEdge p { s with host := rest }
  | .offer o :: rest => if evtReady s then runOffer o { s with host := rest } else .next (takeOutput s)

/-- The instruction of a table word placed as the host's next transaction, what was pending taken (R57), so that the very next
step runs it. Bits that are no word or frame of the table become a transaction the decoder refuses. -/
def State.withFetchWord (s : State) (nbits w : Nat) : State :=
  { takeAll s with host := .offer ((tableOffer nbits w).getD (.commandFrame [])) :: s.host }

end Sys2Proof.Machine
end

