-- ==== Sys2Proof/Machine/HostProtocol.lean ====
section
/-! DEFINITION. What a host does with the core: event sequences, pins, boot and the control cycle (spec/70_reset_and_hazards.md
R224 to R226), and the pseudo-instructions of the assembler (30_encoding.md R87) as event sequences. -/

namespace Sys2Proof.Machine

/-- Runs some instructions one after another. Before each, the host takes every output of the step before it, because the core
does not take a new event while one waits (R57, R239). What was emitted in all is `taken ++ out`, in order. -/
def runEvents : List Instr → State → Result
  | [], s => .next s
  | i :: is, s => andThen (exec i (takeAll s)) (runEvents is)

/-- All inputs low: an edge at which nothing is offered and nothing is taken. -/
def idlePins : Pins := ⟨false, 0, false, false, false, 0, false⟩

/-- An edge at which the host offers the event word `w`. -/
def eventPins (w : EventWord) : Pins := { idlePins with evtValid := true, evtWord := w }

/-- An edge at which the host takes an output event if one is offered. -/
def readyPins : Pins := { idlePins with outReady := true }

/-- A reset edge with a configuration on the `cfg_*` pins (R224). -/
def resetPins (msgLen : BitVec 3) (desk remote : Bool) : Pins :=
  { idlePins with rst := true, cfgMsgLen := msgLen, cfgDeskPresent := desk, cfgRemotePresent := remote }

/-- One control cycle of the source's host (R225): the desk bytes, then the remote bytes, then one `CYCLE`. -/
def controlCycle (desk remote : List Byte) : List Instr :=
  desk.map .deskRx ++ remote.map .remRx ++ [.cycle]

/-- `DESKF b1, ..., bk`: raw desk bytes after a start byte (R87). -/
def deskf (bs : List Byte) : List Instr := (deskStart :: bs).map .deskRx

/-- `DESKV h, t, u`: a desk frame with the right type and checksum for the configured length (R87). -/
def deskv (n : MsgLen) (h t u : Byte) : List Instr :=
  match n with
  | .six => deskf [h, t, u, deskType, checksum [h, t, u, deskType]]
  | .five => deskf [h, t, u, checksum [h, t, u]]

/-- `REMF b1, ..., bk`: raw remote bytes after a start byte (R87). -/
def remf (bs : List Byte) : List Instr := (remoteStart :: bs).map .remRx

/-- `REMV m`: a valid remote frame with mask `m` (R87). -/
def remv (m : Byte) : List Instr := remf [0x00, m, 0x00, m]

/-- `PRESET n` for n = 1, 2, 3 (R87). -/
def presetN (n : Nat) : Option Instr :=
  if n = 1 then some .preset1 else if n = 2 then some .preset2 else if n = 3 then some .preset3 else none

end Sys2Proof.Machine
end

