-- ==== Sys2Proof/Machine/Assembler.lean ====
section
/-! DEFINITION. The assembler syntax of the event stream (spec/30_encoding.md R86) and its pseudo-instructions (R87). A line is a
list of characters. What R86 leaves open (white space, operand range, letter case) is in log entry 15. -/

namespace Sys2Proof.Machine

/-- Blanks between the parts of a line. -/
def isBlank (c : Char) : Bool := c == ' ' || c == '\t'

/-- The line up to its comment: `;` starts a comment that runs to the end of the line (R86). -/
def dropComment (line : List Char) : List Char := line.takeWhile (· != ';')

/-- Without blanks at either end. -/
def trim (cs : List Char) : List Char := ((cs.dropWhile isBlank).reverse.dropWhile isBlank).reverse

/-- The parts of a list between commas. -/
def splitCommas : List Char → List (List Char)
  | [] => [[]]
  | c :: cs =>
    match splitCommas cs with
    | [] => [[]]
    | p :: ps => if c == ',' then [] :: p :: ps else (c :: p) :: ps

/-- The value of a digit character in bases up to sixteen. -/
def digitValue (c : Char) : Option Nat :=
  if 48 ≤ c.toNat ∧ c.toNat ≤ 57 then some (c.toNat - 48)
  else if 65 ≤ c.toNat ∧ c.toNat ≤ 70 then some (c.toNat - 55)
  else if 97 ≤ c.toNat ∧ c.toNat ≤ 102 then some (c.toNat - 87)
  else none

/-- The number some digits spell in a base, after the number `acc`. -/
def digitsFrom (base acc : Nat) : List Char → Option Nat
  | [] => some acc
  | c :: cs =>
    match digitValue c with
    | some d => if d < base then digitsFrom base (base * acc + d) cs else none
    | none => none

/-- An operand: a hexadecimal number with prefix `0x`, or a decimal number (R86). -/
def parseNumber : List Char → Option Nat
  | [] => none
  | '0' :: 'x' :: [] => none
  | '0' :: 'x' :: cs => digitsFrom 16 0 cs
  | cs => digitsFrom 10 0 cs

/-- The operands of a line, separated by commas (R86, R87). -/
def parseOperands (cs : List Char) : Option (List Nat) :=
  if trim cs = [] then some [] else (splitCommas cs).mapM fun p => parseNumber (trim p)

/-- A byte operand must fit 8 bits (log entry 15). -/
def byteOperand (n : Nat) : Option Byte := if n < 256 then some (BitVec.ofNat 8 n) else none

/-- A target operand must fit 16 bits (R74). -/
def targetOperand (n : Nat) : Option Tenths := if n < 65536 then some (BitVec.ofNat 16 n) else none

/-- The mnemonics of R86 and the pseudo-instructions of R87. -/
inductive Mnemonic where
  /-- `DESK_RX` -/
  | deskRx
  /-- `REM_RX` -/
  | remRx
  /-- `CYCLE` -/
  | cycle
  /-- `MOVE_TO` -/
  | moveTo
  /-- `STOP` -/
  | stop
  /-- `PRESET1` -/
  | preset1
  /-- `PRESET2` -/
  | preset2
  /-- `PRESET3` -/
  | preset3
  /-- `SIM_BTN` -/
  | simBtn
  /-- `DESKF` -/
  | deskf
  /-- `DESKV` -/
  | deskv
  /-- `REMF` -/
  | remf
  /-- `REMV` -/
  | remv
  /-- `PRESET` -/
  | preset
deriving DecidableEq, Repr

/-- The spelling of each mnemonic (R86, R87). -/
def mnemonicOf (w : List Char) : Option Mnemonic :=
  if w = ['D', 'E', 'S', 'K', '_', 'R', 'X'] then some .deskRx
  else if w = ['R', 'E', 'M', '_', 'R', 'X'] then some .remRx
  else if w = ['C', 'Y', 'C', 'L', 'E'] then some .cycle
  else if w = ['M', 'O', 'V', 'E', '_', 'T', 'O'] then some .moveTo
  else if w = ['S', 'T', 'O', 'P'] then some .stop
  else if w = ['P', 'R', 'E', 'S', 'E', 'T', '1'] then some .preset1
  else if w = ['P', 'R', 'E', 'S', 'E', 'T', '2'] then some .preset2
  else if w = ['P', 'R', 'E', 'S', 'E', 'T', '3'] then some .preset3
  else if w = ['S', 'I', 'M', '_', 'B', 'T', 'N'] then some .simBtn
  else if w = ['D', 'E', 'S', 'K', 'F'] then some .deskf
  else if w = ['D', 'E', 'S', 'K', 'V'] then some .deskv
  else if w = ['R', 'E', 'M', 'F'] then some .remf
  else if w = ['R', 'E', 'M', 'V'] then some .remv
  else if w = ['P', 'R', 'E', 'S', 'E', 'T'] then some .preset
  else none

/-- The events of a mnemonic and its operands: one event (R86) or a pseudo-instruction's expansion (R87), which for DESKV
depends on `MSG_LEN`. DESKF or REMF with no operand is the start byte alone: R87 does not say whether k may be 0, and this is
the model's choice (DESIGN CHOICE, log entry 15). Any other number of operands than the mnemonic's is refused. -/
def assembleParts (n : MsgLen) : Mnemonic → List Nat → Option (List Instr)
  | .deskRx, [v] => (byteOperand v).map fun b => [.deskRx b]
  | .remRx, [v] => (byteOperand v).map fun b => [.remRx b]
  | .cycle, [] => some [.cycle]
  | .moveTo, [v] => (targetOperand v).map fun t => [.moveTo t]
  | .stop, [] => some [.stop]
  | .preset1, [] => some [.preset1]
  | .preset2, [] => some [.preset2]
  | .preset3, [] => some [.preset3]
  | .simBtn, [v] => (byteOperand v).map fun m => [.simBtn m]
  | .deskf, vs => (vs.mapM byteOperand).map Sys2Proof.Machine.deskf
  | .deskv, [h, t, u] => do
      let h' ← byteOperand h
      let t' ← byteOperand t
      let u' ← byteOperand u
      pure (Sys2Proof.Machine.deskv n h' t' u')
  | .remf, vs => (vs.mapM byteOperand).map Sys2Proof.Machine.remf
  | .remv, [v] => (byteOperand v).map Sys2Proof.Machine.remv
  | .preset, [v] => (presetN v).map fun i => [i]
  | _, _ => none

/-- The events of one line: none for a line that is blank or only a comment, `none` for a line outside the syntax. -/
def assembleLine (n : MsgLen) (line : List Char) : Option (List Instr) :=
  let body := trim (dropComment line)
  if body = [] then some []
  else do
    let m ← mnemonicOf (body.takeWhile fun c => !isBlank c)
    let vs ← parseOperands (body.dropWhile fun c => !isBlank c)
    assembleParts n m vs

/-- The event words of one line (R86): each event is the word `(op << 16) | operand` of R72. -/
def assembleWords (n : MsgLen) (line : List Char) : Option (List EventWord) :=
  (assembleLine n line).map fun is => is.filterMap fun i =>
    match encode i with
    | .event w => some w
    | _ => none

end Sys2Proof.Machine
end

