-- ==== Sys2Proof/Machine/Ports.lean ====
section
/-! DEFINITION. The core's outputs and registers as views of the state: the ports of spec/10_state.md R34 and R37 and the
registers S0 to S6 of R33. Reserved bits read 0. -/

namespace Sys2Proof.Machine

/-- A one-bit value. -/
def bit (b : Bool) : BitVec 1 := BitVec.ofBool b

/-- `mv_state` as its 2-bit code (R21; 92 D22). -/
def mvCode : MvState → BitVec 2
  | .idle => 0
  | .raising => 1
  | .lowering => 2

/-- A phase as its bit (R21). -/
def phaseCode : Phase → BitVec 1
  | .searching => 0
  | .accumulating => 1

/-- `MSG_LEN` as S0[2:0] (R33). -/
def msgLenBits : MsgLen → BitVec 3
  | .five => 5
  | .six => 6

/-- `op_state` (R37). -/
def opState (s : State) : BitVec 2 := mvCode s.mvState

/-- `height` (R37). -/
def height (s : State) : BitVec 16 := s.curPos

/-- `height_valid` (R37). -/
def heightValid (s : State) : Bool := s.posKnown

/-- `buttons`, from bit 4 down: m3, m2, m1, down, up (R37). -/
def buttons (s : State) : BitVec 5 := bit s.btnM3 ++ bit s.btnM2 ++ bit s.btnM1 ++ bit s.btnDown ++ bit s.btnUp

/-- The level output `ill` (R37). -/
def illLevel (s : State) : Bool := s.ill

/-- `out_valid`: an output event is offered (R34). -/
def outValid (s : State) : Bool := !s.out.isEmpty

/-- `out_kind` of an output event (R34). -/
def outKind : OutEvent → BitVec 2
  | .tx _ => 0
  | .heightPub _ => 1
  | .buttonPub _ _ _ _ _ => 2
  | .diag _ => 3

/-- `out_data` of an output event; all other bits 0 (R34). -/
def outData : OutEvent → BitVec 16
  | .tx b => 0#8 ++ b
  | .heightPub h => h
  | .buttonPub u d m1 m2 m3 => 0#11 ++ bit m3 ++ bit m2 ++ bit m1 ++ bit d ++ bit u
  | .diag c => 0#14 ++ c

/-- `out_kind` and `out_data` while `out_valid` is high: the oldest pending event (R36, R239). The spec gives them no value while
it is low (log entry 14). -/
def outPort (s : State) : Option (BitVec 2 × BitVec 16) :=
  s.out.head?.map fun e => (outKind e, outData e)

/-- S0 CFG: [2:0] `MSG_LEN`, [3] `DESK_PRESENT`, [4] `REMOTE_PRESENT`, [15:5] 0 (R33). -/
def regS0 (s : State) : BitVec 16 :=
  0#11 ++ bit s.cfg.remotePresent ++ bit s.cfg.deskPresent ++ msgLenBits s.cfg.msgLen

/-- S1 STATUS: [1:0] `mv_state`, [2] `pos_known`, [3] `ill`, [15:4] 0 (R33). -/
def regS1 (s : State) : BitVec 16 := 0#12 ++ bit s.ill ++ bit s.posKnown ++ mvCode s.mvState

/-- S2 HEIGHT: `cur_pos` (R33). -/
def regS2 (s : State) : BitVec 16 := s.curPos

/-- S3 BUTTONS: [0] up, [1] down, [2] m1, [3] m2, [4] m3, [15:5] 0 (R33). -/
def regS3 (s : State) : BitVec 16 := 0#11 ++ buttons s

/-- S4 TARGET: `tgt_pos` (R33). -/
def regS4 (s : State) : BitVec 16 := s.tgtPos

/-- S5 DESKSCAN without its buffer: [0] `dphase`, [3:1] `dcnt` (R33; log entry 24). -/
def regS5 (s : State) : BitVec 4 := s.dcnt ++ phaseCode s.dphase

/-- S6 REMSCAN without its buffer: [0] `rphase`, [2:1] `rcnt` (R33; log entry 24). -/
def regS6 (s : State) : BitVec 3 := s.rcnt ++ phaseCode s.rphase

end Sys2Proof.Machine
end

