-- ==== Sys2Proof/Safety.lean ====
section
/-! DEFINITION. What holds between two steps (spec/10_state.md R22 to R27), what a host may offer (70_reset_and_hazards.md R224),
and the terms the statements are written in. -/

namespace Sys2Proof.Machine

/-- An output event the core can emit: a diagnostic code is 1, 2 or 3 (R201) and a height is at most 9990 tenths (R9). -/
def OutEvent.legal : OutEvent → Prop
  | .tx _ => True
  | .heightPub h => h.toNat ≤ 9990
  | .buttonPub _ _ _ _ _ => True
  | .diag c => c ≠ 0

/-- A byte for the desk bus. -/
def OutEvent.isTx : OutEvent → Bool
  | .tx _ => true
  | .heightPub _ => false
  | .buttonPub _ _ _ _ _ => false
  | .diag _ => false

/-- A diagnostic. -/
def OutEvent.isDiag : OutEvent → Bool
  | .tx _ => false
  | .heightPub _ => false
  | .buttonPub _ _ _ _ _ => false
  | .diag _ => true

/-- The bytes for the desk bus among some output events, in order: the desk transmit stream (R51, R65). -/
def txBytes : List OutEvent → List Byte
  | [] => []
  | .tx b :: es => b :: txBytes es
  | .heightPub _ :: es => txBytes es
  | .buttonPub _ _ _ _ _ :: es => txBytes es
  | .diag _ :: es => txBytes es

/-- The invariant between two steps. -/
structure CoreInv (s : State) : Prop where
  /-- SEARCHING means an empty desk buffer (R24). -/
  deskEmpty : s.dphase = .searching → s.dcnt = 0
  /-- ACCUMULATING means a desk buffer that is not full (R24). -/
  deskRoom : s.dphase = .accumulating → s.dcnt.toNat < msgLenNat s.cfg.msgLen - 1
  /-- Desk buffer elements at or above the count hold 0x00 (R23). -/
  deskDead : ∀ i : Fin 5, s.dcnt.toNat ≤ i.val → s.dbuf[i] = 0x00
  /-- SEARCHING means an empty remote buffer (R25). -/
  remEmpty : s.rphase = .searching → s.rcnt = 0
  /-- Remote buffer elements at or above the count hold 0x00 (R23). -/
  remDead : ∀ i : Fin 3, s.rcnt.toNat ≤ i.val → s.rbuf[i] = 0x00
  /-- `cur_pos` is a reading, 0 to 9990 tenths (R9, R33). -/
  curRange : s.curPos.toNat ≤ 9990
  /-- Before the first reading `cur_pos` is 0 (R21, R175). -/
  curUnknown : s.posKnown = false → s.curPos = 0
  /-- Without the desk transport nothing moves, nothing is scanned or read, and no byte waits for the desk bus (R170, R172,
  R202). -/
  deskAbsent : s.cfg.deskPresent = false →
    s.mvState = .idle ∧ s.dphase = .searching ∧ s.posKnown = false ∧ ∀ e ∈ s.out, e.isTx = false
  /-- Without the remote transport nothing is scanned and no button is pressed (R202). -/
  remoteAbsent : s.cfg.remotePresent = false →
    s.rphase = .searching ∧ s.btnUp = false ∧ s.btnDown = false ∧ s.btnM1 = false ∧ s.btnM2 = false ∧ s.btnM3 = false
  /-- `SEG_TABLE` is legal (R8). -/
  table : s.cfg.segTable.legal = true
  /-- Every output event that waits or was taken is one the core can emit. -/
  outLegal : ∀ e ∈ s.taken ++ s.out, e.legal

/-- An input that keeps the host's duties: a reset edge has `cfg_msg_len` 5 or 6 (R224), a frame transaction is a bus frame. -/
def HostInput.legal : HostInput → Bool
  | .edge p => !p.rst || (msgLenOfBits p.cfgMsgLen).isSome
  | .offer o => (decode o).isOk

/-- A reset edge. -/
def HostInput.isReset : HostInput → Bool
  | .edge p => p.rst
  | .offer _ => false

/-- The checksum the desk scanner computes, in the numbers of R113: the sum of the bytes mod 256. -/
def sumsTo (bs : List Byte) (c : Byte) : Prop := (bs.map BitVec.toNat).sum % 256 = c.toNat

/-- The buffer bytes a desk scanner of length `n` holds when its last byte `c` arrives, and that byte, make a frame that is
"structurally valid, checksum-correct, fully-decodable" with reading `h` (R113, R114, R118). -/
structure ValidDeskFrame (n : MsgLen) (tbl : SegTable) (buf : Vector Byte 5) (c : Byte) (h : Tenths) : Prop where
  /-- Checksum-correct (R113). -/
  sum : match n with
    | .five => sumsTo [buf[0], buf[1], buf[2]] c
    | .six => sumsTo [buf[0], buf[1], buf[2], buf[3]] c
  /-- The supported type, length 6 only (R114 check 1). -/
  type : n = .six → buf[3] = 0x01
  /-- Not a blank display (R114 check 2). -/
  lit : ¬(buf[0] = 0x00 ∧ buf[1] = 0x00 ∧ buf[2] = 0x00)
  /-- Fully decodable: three digits (R114 check 3) whose patterns are the segment bytes' bits 6:0 (R102), and the reading
  they give, divided by 10 when bit 7 of the tens byte is set. -/
  digits : ∃ d0 d1 d2 : Digit,
    tbl[d0] = buf[0].extractLsb' 0 7 ∧ tbl[d1] = buf[1].extractLsb' 0 7 ∧ tbl[d2] = buf[2].extractLsb' 0 7 ∧
    h.toNat = (100 * d0.val + 10 * d1.val + d2.val) * (if buf[1].getLsbD 7 then 1 else 10)

/-- Two states a host cannot tell apart: they agree on everything but the buffer elements at or above the counts (R23) and,
while IDLE, the target (R171). -/
structure SameToHost (s t : State) : Prop where
  /-- The scanners' phases and counts agree. -/
  scan : s.dphase = t.dphase ∧ s.dcnt = t.dcnt ∧ s.rphase = t.rphase ∧ s.rcnt = t.rcnt
  /-- The desk bytes below the count agree. -/
  desk : ∀ i : Fin 5, i.val < s.dcnt.toNat → s.dbuf[i] = t.dbuf[i]
  /-- The remote bytes below the count agree. -/
  rem : ∀ i : Fin 3, i.val < s.rcnt.toNat → s.rbuf[i] = t.rbuf[i]
  /-- The movement state agrees, and the target too unless IDLE. -/
  move : s.mvState = t.mvState ∧ (s.mvState ≠ .idle → s.tgtPos = t.tgtPos)
  /-- The reading agrees. -/
  reading : s.curPos = t.curPos ∧ s.posKnown = t.posKnown
  /-- The buttons and `ill` agree. -/
  levels : s.btnUp = t.btnUp ∧ s.btnDown = t.btnDown ∧ s.btnM1 = t.btnM1 ∧ s.btnM2 = t.btnM2 ∧ s.btnM3 = t.btnM3 ∧
    s.ill = t.ill
  /-- The configuration, the channels and the host's script agree. -/
  channel : s.cfg = t.cfg ∧ s.out = t.out ∧ s.taken = t.taken ∧ s.host = t.host

end Sys2Proof.Machine
end

