-- ==== Sys2Proof/Certificates/Slice0/Obligations.lean ====
section
/-! DEFINITION. The statements for the provers. A state's frame is said by record equality: `{ s with … }` changes the named
fields and nothing else. `taken` is the model's record of the outputs the host has taken (log entry 4), so `taken ++ out` is
all that was emitted and not discarded, in order. -/

open Sys2Proof Sys2Proof.Machine

/-! ## Encoding -/

/-- Decoding an encoded well-formed instruction gives it back, for every row of the table and every operand. -/
def Obligations.DecodeOfEncodeIsIdentity : Prop :=
  ∀ i : Instr, i.wf = true → decode (encode i) = .ok i

/-- Whatever decodes is well formed and is the encoding of what it decodes to: no bit is ignored. -/
def Obligations.EncodeOfDecodeIsIdentity : Prop :=
  ∀ (o : Offer) (i : Instr), decode o = .ok i → i.wf = true ∧ encode i = o

/-- R72: the opcode map by match and mask, over every 20-bit word; what no event row and no reserved row matches is
`ILLEGAL_NONZERO_MBZ`. -/
def Obligations.OpcodeMapByMatchAndMask : Prop :=
  ∀ w : EventWord,
    (w &&& 0xFFF00 = 0x10000 ↔ decode (.event w) = .ok (.deskRx (w.extractLsb' 0 8))) ∧
    (w &&& 0xFFF00 = 0x20000 ↔ decode (.event w) = .ok (.remRx (w.extractLsb' 0 8))) ∧
    (w &&& 0xFFFFF = 0x30000 ↔ decode (.event w) = .ok .cycle) ∧
    (w &&& 0xF0000 = 0x40000 ↔ decode (.event w) = .ok (.moveTo (w.extractLsb' 0 16))) ∧
    (w &&& 0xFFFFF = 0x50000 ↔ decode (.event w) = .ok .stop) ∧
    (w &&& 0xFFFFF = 0x60000 ↔ decode (.event w) = .ok .preset1) ∧
    (w &&& 0xFFFFF = 0x70000 ↔ decode (.event w) = .ok .preset2) ∧
    (w &&& 0xFFFFF = 0x80000 ↔ decode (.event w) = .ok .preset3) ∧
    (w &&& 0xFFF00 = 0x90000 ↔ decode (.event w) = .ok (.simBtn (w.extractLsb' 0 8))) ∧
    (w &&& 0xF0000 = 0x00000 ↔ decode (.event w) = .ok (.reservedOp0 (w.extractLsb' 0 16))) ∧
    (w &&& 0xF0000 = 0xA0000 ↔ decode (.event w) = .ok (.reservedOpA (w.extractLsb' 0 16))) ∧
    (w &&& 0xF0000 = 0xB0000 ↔ decode (.event w) = .ok (.reservedOpB (w.extractLsb' 0 16))) ∧
    (w &&& 0xF0000 = 0xC0000 ↔ decode (.event w) = .ok (.reservedOpC (w.extractLsb' 0 16))) ∧
    (w &&& 0xF0000 = 0xD0000 ↔ decode (.event w) = .ok (.reservedOpD (w.extractLsb' 0 16))) ∧
    (w &&& 0xF0000 = 0xE0000 ↔ decode (.event w) = .ok (.reservedOpE (w.extractLsb' 0 16))) ∧
    (w &&& 0xF0000 = 0xF0000 ↔ decode (.event w) = .ok (.reservedOpF (w.extractLsb' 0 16))) ∧
    (w &&& 0xFFF00 ≠ 0x10000 ∧ w &&& 0xFFF00 ≠ 0x20000 ∧ w &&& 0xFFFFF ≠ 0x30000 ∧ w &&& 0xF0000 ≠ 0x40000 ∧
      w &&& 0xFFFFF ≠ 0x50000 ∧ w &&& 0xFFFFF ≠ 0x60000 ∧ w &&& 0xFFFFF ≠ 0x70000 ∧ w &&& 0xFFFFF ≠ 0x80000 ∧
      w &&& 0xFFF00 ≠ 0x90000 ∧ w &&& 0xF0000 ≠ 0x00000 ∧ w &&& 0xF0000 ≠ 0xA0000 ∧ w &&& 0xF0000 ≠ 0xB0000 ∧
      w &&& 0xF0000 ≠ 0xC0000 ∧ w &&& 0xF0000 ≠ 0xD0000 ∧ w &&& 0xF0000 ≠ 0xE0000 ∧ w &&& 0xF0000 ≠ 0xF0000 ↔
      decode (.event w) = .ok (.illegalNonzeroMbz (w.extractLsb' 16 4) (w.extractLsb' 0 16)))

/-- Words written out from the tables of R72 and R76 to R80 decode to the rows they stand for (95_test_vectors.md). How a
frame's bits are numbered is log entry 20. The last two words fit the remote-frame row too (`00 + 20 + DF = FF`): that they are
read as command rows is the model's choice (log entry 8). -/
def Obligations.SampleWordsDecodeToTheirRows : Prop :=
  decodeTableWord 24 0x1005A = some (.deskRx 0x5A) ∧ decodeTableWord 24 0x200A5 = some (.remRx 0xA5) ∧
  decodeTableWord 24 0x30000 = some .cycle ∧ decodeTableWord 24 0x40320 = some (.moveTo 800) ∧
  decodeTableWord 24 0x50000 = some .stop ∧ decodeTableWord 24 0x90006 = some (.simBtn 0x06) ∧
  decodeTableWord 24 0x30001 = some (.illegalNonzeroMbz 0x3 0x0001) ∧
  decodeTableWord 24 0xFFFFF = some (.reservedOpF 0xFFFF) ∧
  decodeTableWord 48 0x5A07DB6D0150 = some (.deskStatus6 0x07 0xDB 0x6D 0x01 0x50) ∧
  decodeTableWord 40 0x5A07DB6D4F = some (.deskStatus5 0x07 0xDB 0x6D 0x4F) ∧
  decodeTableWord 40 0xA500200020 = some (.remoteKeys 0x00 0x20 0x00 0x20) ∧
  decodeTableWord 40 0xA50020DFFF = some .cmdDriveUp ∧ decodeTableWord 40 0xA50006F9FF = some (.cmdButton 0x06)

/-- Lines of the assembler syntax of R86 and R87 and their words. Three clauses are the model's choice (log entry 15): the blanks
at the ends of a line and before its comment, the refusal of 256, and no event for a line that is only a comment. -/
def Obligations.AssemblerLinesGiveTheirWords : Prop :=
  assembleWords .six "MOVE_TO 800".toList = some [0x40320] ∧
  assembleWords .six "  DESK_RX 0x5A ; start byte".toList = some [0x1005A] ∧
  assembleWords .six "STOP".toList = some [0x50000] ∧
  assembleWords .six "PRESET 2".toList = some [0x70000] ∧
  assembleWords .six "REMV 0x20".toList = some [0x200A5, 0x20000, 0x20020, 0x20000, 0x20020] ∧
  assembleWords .five "DESKV 0x06, 0x4F, 0x66".toList = some [0x1005A, 0x10006, 0x1004F, 0x10066, 0x100BB] ∧
  assembleWords .six "SIM_BTN 256".toList = none ∧ assembleWords .six "; a comment".toList = some []

/-! ## A step runs the decoded instruction -/

/-- A transaction that decodes to a well-formed `i` makes the step `exec` of `i`, when no output is pending; while one is
pending, the oldest is taken and the transaction stays. That a transaction waits is the model's choice (log entry 5). -/
def Obligations.StepRunsTheOfferedInstruction : Prop :=
  ∀ (s : State) (o : Offer) (rest : List HostInput) (i : Instr),
    s.host = .offer o :: rest → decode o = .ok i → i.wf = true →
      (s.out = [] → step s = exec i { s with host := rest }) ∧
      (∀ e es, s.out = e :: es → step s = .next { s with out := es, taken := s.taken ++ [e] })

/-- A clock edge with `rst` low (R239): the word is taken where `evt_valid` and `evt_ready` are both high, and then its
instruction runs; otherwise an offered output event leaves where `out_ready` is high; otherwise the state holds. -/
def Obligations.ClockEdgeRunsTheOfferedWord : Prop :=
  ∀ (s : State) (p : Pins) (rest : List HostInput),
    s.host = .edge p :: rest → p.rst = false →
      (s.out = [] → p.evtValid = true → ∀ i, decode (.event p.evtWord) = .ok i →
        step s = exec i { s with host := rest }) ∧
      (s.out = [] → p.evtValid = false → step s = .next { s with host := rest }) ∧
      (∀ e es, s.out = e :: es → p.outReady = true →
        step s = .next { s with out := es, taken := s.taken ++ [e], host := rest }) ∧
      (s.out ≠ [] → p.outReady = false → step s = .next { s with host := rest })

/-- R214: with no input the state holds and nothing is emitted. -/
def Obligations.WithoutInputTheStateHolds : Prop :=
  ∀ s : State, s.host = [] → step s = .next s

/-! ## Reset -/

/-- A reset edge puts every element to its reset value, loads S0 from the pins, discards the pending outputs and emits none
(R38, R220). That no output is taken at that edge, even with `out_ready` high, so that `taken` stays, is the model's reading of
an open point (log entry 13). -/
def Obligations.ResetEdgeSetsEveryElement : Prop :=
  ∀ (s : State) (p : Pins) (rest : List HostInput), s.host = .edge p :: rest → p.rst = true →
    (∀ n : MsgLen, (p.cfgMsgLen = 5 ∧ n = .five) ∨ (p.cfgMsgLen = 6 ∧ n = .six) →
      step s = .next
        { dphase := .searching, dcnt := 0, dbuf := #v[0, 0, 0, 0, 0], rphase := .searching, rcnt := 0, rbuf := #v[0, 0, 0],
          mvState := .idle, tgtPos := 0, curPos := 0, posKnown := false,
          btnUp := false, btnDown := false, btnM1 := false, btnM2 := false, btnM3 := false, ill := false,
          cfg := ⟨n, p.cfgDeskPresent, p.cfgRemotePresent, s.cfg.segTable⟩,
          out := [], taken := s.taken, host := rest })

/-- A reset edge with a `cfg_msg_len` other than 5 or 6, for which the spec has no run (R38), is refused: log entry 12. -/
def Obligations.BadMessageLengthIsRefused : Prop :=
  ∀ (s : State) (p : Pins) (rest : List HostInput), s.host = .edge p :: rest → p.rst = true →
    p.cfgMsgLen ≠ 5 → p.cfgMsgLen ≠ 6 → step s = .refused (.badMsgLen p.cfgMsgLen)

/-- R221: the level outputs after reset. -/
def Obligations.LevelOutputsAfterReset : Prop :=
  ∀ (c : Cfg) (es : List OutEvent) (hs : List HostInput),
    opState (State.resetWith c es hs) = 0 ∧ height (State.resetWith c es hs) = 0 ∧
    heightValid (State.resetWith c es hs) = false ∧ buttons (State.resetWith c es hs) = 0 ∧
    illLevel (State.resetWith c es hs) = false

/-- R28, R222: outside a reset edge no step clears `pos_known` or `ill` or changes the configuration. -/
def Obligations.OnlyResetClearsFlagsOrChangesConfig : Prop :=
  ∀ s t : State, step s = .next t → (∀ x rest, s.host = x :: rest → x.isReset = false) →
    (s.posKnown = true → t.posKnown = true) ∧ (s.ill = true → t.ill = true) ∧ t.cfg = s.cfg

/-! ## The desk scanner -/

/-- R111: the Searching phase. -/
def Obligations.SearchingDeskScannerTakesOnlyStartByte : Prop :=
  ∀ (b : Byte) (s : State), s.cfg.deskPresent = true → s.dphase = .searching →
    exec (.deskRx b) s = .next (if b = 0x5A then { s with dphase := .accumulating, dcnt := 0 } else s)

/-- R112, R116: while the frame is not complete every byte, 0x5A too, is stored and nothing is emitted. -/
def Obligations.AccumulatingDeskScannerStoresEveryByte : Prop :=
  ∀ (b : Byte) (s : State), s.cfg.deskPresent = true → s.dphase = .accumulating →
    s.dcnt.toNat + 1 < msgLenNat s.cfg.msgLen - 1 →
    exec (.deskRx b) s =
      .next { s with dbuf := s.dbuf.setIfInBounds s.dcnt.toNat b, dcnt := BitVec.ofNat 3 (s.dcnt.toNat + 1) }

/-- R117, with R113 to R115: the outcomes of the byte `c` that completes a desk frame. -/
def Obligations.CompleteDeskFrameOutcomes : Prop :=
  ∀ (c : Byte) (s : State), s.cfg.deskPresent = true → s.dphase = .accumulating →
    s.dcnt.toNat + 1 = msgLenNat s.cfg.msgLen - 1 → s.cfg.segTable.legal = true →
    let n := s.cfg.msgLen
    let sumOk := match n with
      | .five => sumsTo [s.dbuf[0], s.dbuf[1], s.dbuf[2]] c
      | .six => sumsTo [s.dbuf[0], s.dbuf[1], s.dbuf[2], s.dbuf[3]] c
    let resynced : State := { s with dphase := .searching, dcnt := 0, dbuf := #v[0, 0, 0, 0, 0] }
    (¬sumOk → exec (.deskRx c) s = .next { resynced with out := s.out ++ [.diag 1] }) ∧
    (∀ h, ValidDeskFrame n s.cfg.segTable s.dbuf c h → s.posKnown = true → h = s.curPos →
      exec (.deskRx c) s = .next resynced) ∧
    (∀ h, ValidDeskFrame n s.cfg.segTable s.dbuf c h → s.posKnown = false ∨ h ≠ s.curPos →
      exec (.deskRx c) s =
        .next { resynced with curPos := h, posKnown := true, out := s.out ++ [.heightPub h] }) ∧
    (sumOk → (∀ h, ¬ValidDeskFrame n s.cfg.segTable s.dbuf c h) → exec (.deskRx c) s = .next resynced)

/-- R77, R113 to R115: a whole length-6 desk frame in front of a SEARCHING scanner of that length: a wrong checksum gives
`Diag(1)`, a valid frame its reading, any other frame nothing. That the frame is one instruction, before each byte of which the
host takes what is pending, is the model's choice (log entry 6). -/
def Obligations.DeskFrameOfLengthSix : Prop :=
  ∀ (h t u y c : Byte) (s : State), s.cfg.deskPresent = true → s.cfg.msgLen = .six → s.dphase = .searching →
    s.cfg.segTable.legal = true →
    let buf : Vector Byte 5 := #v[h, t, u, y, 0]
    let resynced : State := { s with dcnt := 0, dbuf := #v[0, 0, 0, 0, 0], taken := s.taken ++ s.out, out := [] }
    (¬sumsTo [h, t, u, y] c → exec (.deskStatus6 h t u y c) s = .next { resynced with out := [.diag 1] }) ∧
    (∀ r, ValidDeskFrame .six s.cfg.segTable buf c r →
      exec (.deskStatus6 h t u y c) s = .next { resynced with
        curPos := r, posKnown := true,
        out := if s.posKnown = false ∨ r ≠ s.curPos then [.heightPub r] else [] }) ∧
    (sumsTo [h, t, u, y] c → (∀ r, ¬ValidDeskFrame .six s.cfg.segTable buf c r) →
      exec (.deskStatus6 h t u y c) s = .next resynced)

/-- R78, R113 to R115: the same for length 5. That the frame is one instruction, before each byte of which the host takes what
is pending, is the model's choice (log entry 6). -/
def Obligations.DeskFrameOfLengthFive : Prop :=
  ∀ (h t u c : Byte) (s : State), s.cfg.deskPresent = true → s.cfg.msgLen = .five → s.dphase = .searching →
    s.cfg.segTable.legal = true →
    let buf : Vector Byte 5 := #v[h, t, u, 0, 0]
    let resynced : State := { s with dcnt := 0, dbuf := #v[0, 0, 0, 0, 0], taken := s.taken ++ s.out, out := [] }
    (¬sumsTo [h, t, u] c → exec (.deskStatus5 h t u c) s = .next { resynced with out := [.diag 1] }) ∧
    (∀ r, ValidDeskFrame .five s.cfg.segTable buf c r →
      exec (.deskStatus5 h t u c) s = .next { resynced with
        curPos := r, posKnown := true,
        out := if s.posKnown = false ∨ r ≠ s.curPos then [.heightPub r] else [] }) ∧
    (sumsTo [h, t, u] c → (∀ r, ¬ValidDeskFrame .five s.cfg.segTable buf c r) →
      exec (.deskStatus5 h t u c) s = .next resynced)

/-- R81: a length-5 frame leaves a length-6 scanner waiting for one more byte. A length-6 frame has its type byte taken as the
checksum by a length-5 scanner, whatever comes of that attempt (a mismatch, a reading, a silent discard), and the scanner looks
at the sixth byte as SEARCHING, when what the fifth emitted has been taken. That a frame is one instruction, before each byte of
which the host takes what is pending, is the model's choice (log entry 6). -/
def Obligations.DeskFrameOfTheOtherLength : Prop :=
  ∀ (h t u y c : Byte) (s : State), s.cfg.deskPresent = true → s.dphase = .searching →
    (s.cfg.msgLen = .six → exec (.deskStatus5 h t u y) s =
      .next { s with
        dphase := .accumulating, dcnt := 4, dbuf := #v[h, t, u, y, s.dbuf[4]], taken := s.taken ++ s.out, out := [] }) ∧
    (s.cfg.msgLen = .five →
      let buf : Vector Byte 5 := #v[h, t, u, 0, 0]
      let searched : State := { s with
        dphase := if c = 0x5A then .accumulating else .searching, dcnt := 0, dbuf := #v[0, 0, 0, 0, 0],
        taken := s.taken ++ s.out, out := [] }
      (¬sumsTo [h, t, u] y →
        exec (.deskStatus6 h t u y c) s = .next { searched with taken := s.taken ++ s.out ++ [.diag 1] }) ∧
      (∀ r, s.cfg.segTable.legal = true → ValidDeskFrame .five s.cfg.segTable buf y r →
        exec (.deskStatus6 h t u y c) s = .next { searched with
          curPos := r, posKnown := true,
          taken := s.taken ++ s.out ++ if s.posKnown = false ∨ r ≠ s.curPos then [.heightPub r] else [] }) ∧
      (sumsTo [h, t, u] y → (∀ r, ¬ValidDeskFrame .five s.cfg.segTable buf y r) →
        exec (.deskStatus6 h t u y c) s = .next searched))

/-- From every state between steps, wherever in a frame the scanners stand, the three received-frame instructions complete;
a desk frame leaves the remote scanner, the movement and the buttons alone, a remote frame the desk scanner, the movement
and the reading; what was emitted before stays, in order, in front of what the frame emits. That a frame is one instruction is
the model's choice (log entry 6). -/
def Obligations.ReceivedFramesCompleteFromEveryState : Prop :=
  ∀ s : State, CoreInv s →
    (∀ h t u y c, ∃ v, exec (.deskStatus6 h t u y c) s = .next v ∧
      v.rphase = s.rphase ∧ v.rcnt = s.rcnt ∧ v.rbuf = s.rbuf ∧ v.mvState = s.mvState ∧ v.tgtPos = s.tgtPos ∧
      v.btnUp = s.btnUp ∧ v.btnDown = s.btnDown ∧ v.btnM1 = s.btnM1 ∧ v.btnM2 = s.btnM2 ∧ v.btnM3 = s.btnM3 ∧
      v.ill = s.ill ∧ v.cfg = s.cfg ∧ v.host = s.host ∧ ∃ es, v.taken ++ v.out = s.taken ++ s.out ++ es) ∧
    (∀ h t u c, ∃ v, exec (.deskStatus5 h t u c) s = .next v ∧
      v.rphase = s.rphase ∧ v.rcnt = s.rcnt ∧ v.rbuf = s.rbuf ∧ v.mvState = s.mvState ∧ v.tgtPos = s.tgtPos ∧
      v.btnUp = s.btnUp ∧ v.btnDown = s.btnDown ∧ v.btnM1 = s.btnM1 ∧ v.btnM2 = s.btnM2 ∧ v.btnM3 = s.btnM3 ∧
      v.ill = s.ill ∧ v.cfg = s.cfg ∧ v.host = s.host ∧ ∃ es, v.taken ++ v.out = s.taken ++ s.out ++ es) ∧
    (∀ r m x c, ∃ v, exec (.remoteKeys r m x c) s = .next v ∧
      v.dphase = s.dphase ∧ v.dcnt = s.dcnt ∧ v.dbuf = s.dbuf ∧ v.mvState = s.mvState ∧ v.tgtPos = s.tgtPos ∧
      v.curPos = s.curPos ∧ v.posKnown = s.posKnown ∧ v.ill = s.ill ∧ v.cfg = s.cfg ∧
      v.host = s.host ∧ ∃ es, v.taken ++ v.out = s.taken ++ s.out ++ es)

/-- R87 and the model's reading of the frame rows (log entry 6): a received-frame instruction is its bytes as receive events. -/
def Obligations.ReceivedFramesAreTheirByteEvents : Prop :=
  ∀ s : State,
    (∀ h t u y c, exec (.deskStatus6 h t u y c) s = runEvents (deskf [h, t, u, y, c]) s) ∧
    (∀ h t u c, exec (.deskStatus5 h t u c) s = runEvents (deskf [h, t, u, c]) s) ∧
    (∀ r m x c, exec (.remoteKeys r m x c) s = runEvents (remf [r, m, x, c]) s)

/-- R57, R239 over sequences: a sequence of well-formed instructions, run one after another with what is pending taken before
each, is what the core's own steps make of it when each is offered as a transaction and waits until no output is pending. So
with `ReceivedFramesAreTheirByteEvents` a frame instruction comes to the same as its byte events offered one by one. That a host
holds its word until it is taken is the model's choice (log entry 5). -/
def Obligations.EventSequencesRunThroughTheChannel : Prop :=
  ∀ (is : List Instr) (s t : State) (rest : List HostInput), (∀ i ∈ is, i.wf = true) → runEvents is s = .next t →
    ∃ k, Sys2Proof.core.run k { s with host := is.map (fun i => .offer (encode i)) ++ rest } = .next { t with host := rest }

/-- R230: after a start byte, true or not, the next `MSG_LEN - 1` desk bytes are taken as the frame, whatever they are: up to
then nothing is emitted and the bytes lie in the buffer, and then the scanner is back in SEARCHING. -/
def Obligations.DeskWindowIsTakenWhateverItHolds : Prop :=
  ∀ (bs : List Byte) (s : State), s.cfg.deskPresent = true → s.dphase = .searching →
    (bs.length < msgLenNat s.cfg.msgLen - 1 → ∃ t, runEvents (deskf bs) s = .next t ∧
      t.dphase = .accumulating ∧ t.dcnt.toNat = bs.length ∧ t.taken ++ t.out = s.taken ++ s.out ∧
      ∀ (i : Nat) (hi : i < 5), i < bs.length → some t.dbuf[i] = bs[i]?) ∧
    (bs.length = msgLenNat s.cfg.msgLen - 1 → ∃ t, runEvents (deskf bs) s = .next t ∧
      t.dphase = .searching ∧ t.dcnt = 0)

/-- R118 at one event: a height is published only by a desk byte that completes a frame whose bytes are structurally valid,
checksum-correct and fully decodable, and it is that frame's reading. -/
def Obligations.HeightPublishedOnlyByValidFrame : Prop :=
  ∀ (i : Instr) (s t : State) (es : List OutEvent) (h : Tenths),
    CoreInv s → i.isEvent = true → exec i s = .next t → t.out = s.out ++ es → OutEvent.heightPub h ∈ es →
    ∃ c, i = .deskRx c ∧ s.dphase = .accumulating ∧ s.dcnt.toNat + 1 = msgLenNat s.cfg.msgLen - 1 ∧
      ValidDeskFrame s.cfg.msgLen s.cfg.segTable s.dbuf c h

/-- R118 over whole streams, the source's "no false positives": from reset, for every byte sequence on the desk bus, every
published height is the reading of a start byte and a valid frame that stand together in the sequence. -/
def Obligations.NoFalsePositivesOverByteStreams : Prop :=
  ∀ (cfg : Cfg) (bs : List Byte) (t : State) (r : Tenths), cfg.segTable.legal = true →
    runEvents (bs.map .deskRx) (State.resetWith cfg [] []) = .next t → OutEvent.heightPub r ∈ t.taken ++ t.out →
    ∃ (before after : List Byte) (h d u y c : Byte),
      bs = before ++ (match cfg.msgLen with
        | .five => [0x5A, h, d, u, c]
        | .six => [0x5A, h, d, u, y, c]) ++ after ∧
      ValidDeskFrame cfg.msgLen cfg.segTable #v[h, d, u, y, 0] c r

/-- R175: `cur_pos` and `pos_known` are written only by a desk byte that completes a valid frame, and `cur_pos` then is its
reading. -/
def Obligations.PositionWrittenOnlyByAcceptedReading : Prop :=
  ∀ (i : Instr) (s t : State), CoreInv s → i.isEvent = true → exec i s = .next t →
    t.curPos ≠ s.curPos ∨ t.posKnown ≠ s.posKnown →
    t.posKnown = true ∧ ∃ c, i = .deskRx c ∧ s.dphase = .accumulating ∧
      s.dcnt.toNat + 1 = msgLenNat s.cfg.msgLen - 1 ∧
      ValidDeskFrame s.cfg.msgLen s.cfg.segTable s.dbuf c t.curPos

/-- R223: the first accepted reading after reset is published whatever its value. From reset, as long as no reading was
accepted, a desk byte that completes a valid frame emits `HeightPub` of its reading. -/
def Obligations.FirstReadingAfterResetIsPublished : Prop :=
  ∀ (cfg : Cfg) (is : List Instr) (s : State) (c : Byte) (h : Tenths), cfg.segTable.legal = true →
    cfg.deskPresent = true → runEvents is (State.resetWith cfg [] []) = .next s → s.posKnown = false →
    s.dphase = .accumulating → s.dcnt.toNat + 1 = msgLenNat cfg.msgLen - 1 →
    ValidDeskFrame cfg.msgLen cfg.segTable s.dbuf c h →
    ∃ t, exec (.deskRx c) s = .next t ∧ t.out = s.out ++ [.heightPub h] ∧ t.curPos = h

/-- R87: `DESKV h, t, u` sends a frame whose checksum and type are right for the configured length: no `Diag(1)`, and three
digits on a display that is not blank are accepted with the reading of R114. -/
def Obligations.DeskvSendsAnAcceptedFrame : Prop :=
  ∀ (h t u : Byte) (d0 d1 d2 : Digit) (s : State), s.cfg.deskPresent = true → s.dphase = .searching →
    s.cfg.segTable.legal = true → ¬(h = 0 ∧ t = 0 ∧ u = 0) →
    s.cfg.segTable[d0] = h.extractLsb' 0 7 → s.cfg.segTable[d1] = t.extractLsb' 0 7 →
    s.cfg.segTable[d2] = u.extractLsb' 0 7 →
    let raw := 100 * d0.val + 10 * d1.val + d2.val
    let r : Tenths := BitVec.ofNat 16 (if t.getLsbD 7 then raw else 10 * raw)
    runEvents (deskv s.cfg.msgLen h t u) s = .next { s with
      dcnt := 0, dbuf := #v[0, 0, 0, 0, 0], curPos := r, posKnown := true, taken := s.taken ++ s.out,
      out := if s.posKnown = false ∨ r ≠ s.curPos then [.heightPub r] else [] }

/-! ## The seven-segment decoder -/

/-- R102: under a legal table `SEGDEC(b)` is the one digit whose pattern is bits 6:0 of `b`, and INVALID when there is none;
bit 7 never changes the result. -/
def Obligations.SegdecFindsTheOneDigit : Prop :=
  ∀ (tbl : SegTable) (b : Byte), tbl.legal = true →
    (∀ d : Digit, segdec tbl b = some d ↔ tbl[d] = b.extractLsb' 0 7) ∧
    segdec tbl b = segdec tbl (b &&& 0x7F)

/-- R102: exactly 20 of the 256 byte values decode to a digit, under every legal table. -/
def Obligations.SegdecDecodesTwentyBytes : Prop :=
  ∀ tbl : SegTable, tbl.legal = true →
    ((List.range 256).filter fun n => (segdec tbl (BitVec.ofNat 8 n)).isSome).length = 20

/-! ## The remote scanner and the bridge -/

/-- R130, R131, R134: a remote byte before the checksum byte is bridged, and then searched or stored. -/
def Obligations.RemoteByteIsBridgedThenScanned : Prop :=
  ∀ (b : Byte) (s : State), s.cfg.remotePresent = true →
    let bridged := s.out ++ if s.cfg.deskPresent = true then [.tx b] else []
    (s.rphase = .searching → b = 0xA5 →
      exec (.remRx b) s = .next { s with out := bridged, rphase := .accumulating, rcnt := 0 }) ∧
    (s.rphase = .searching → b ≠ 0xA5 → exec (.remRx b) s = .next { s with out := bridged }) ∧
    (s.rphase = .accumulating → s.rcnt.toNat < 3 →
      exec (.remRx b) s = .next { s with
        out := bridged, rbuf := s.rbuf.setIfInBounds s.rcnt.toNat b, rcnt := BitVec.ofNat 2 (s.rcnt.toNat + 1) })

/-- R137, with R132, R133, R135: the outcomes of a remote frame's checksum byte. -/
def Obligations.CompleteRemoteFrameOutcomes : Prop :=
  ∀ (c : Byte) (s : State), s.cfg.remotePresent = true → s.rphase = .accumulating → s.rcnt = 3 →
    let m := s.rbuf[1]
    let bridged := s.out ++ if s.cfg.deskPresent = true then [.tx c] else []
    let resynced : State := { s with rphase := .searching, rcnt := 0, rbuf := #v[0, 0, 0] }
    let up := decide (m &&& 0x20 ≠ 0)
    let down := decide (m &&& 0x40 ≠ 0)
    let m1 := decide (m &&& 0x02 ≠ 0)
    let m2 := decide (m &&& 0x04 ≠ 0)
    let m3 := decide (m &&& 0x08 ≠ 0)
    let echo := if s.mvState = .idle ∧ s.cfg.deskPresent = true
      then [.tx 0xA5, .tx 0x00, .tx m, .tx (0xFF - m), .tx 0xFF] else []
    (¬sumsTo [s.rbuf[0], m, s.rbuf[2]] c →
      exec (.remRx c) s = .next { resynced with out := bridged ++ [.diag 2] }) ∧
    (sumsTo [s.rbuf[0], m, s.rbuf[2]] c →
      exec (.remRx c) s = .next { resynced with
        btnUp := up, btnDown := down, btnM1 := m1, btnM2 := m2, btnM3 := m3,
        out := bridged ++ [.buttonPub up down m1 m2 m3] ++ echo })

/-- R79, R130 to R137: a whole remote frame in front of a SEARCHING scanner. Its five bytes are bridged in order, the
first four taken by the host before the fifth arrives (R57), the fifth before anything the frame causes. That the frame is one
instruction, before each byte of which the host takes what is pending, is the model's choice (log entry 6). -/
def Obligations.RemoteFrameFromSearching : Prop :=
  ∀ (r m x c : Byte) (s : State), s.cfg.remotePresent = true → s.rphase = .searching →
    let early := if s.cfg.deskPresent = true then [.tx 0xA5, .tx r, .tx m, .tx x] else []
    let last := if s.cfg.deskPresent = true then [.tx c] else []
    let resynced : State := { s with rcnt := 0, rbuf := #v[0, 0, 0], taken := s.taken ++ s.out ++ early }
    let up := decide (m &&& 0x20 ≠ 0)
    let down := decide (m &&& 0x40 ≠ 0)
    let m1 := decide (m &&& 0x02 ≠ 0)
    let m2 := decide (m &&& 0x04 ≠ 0)
    let m3 := decide (m &&& 0x08 ≠ 0)
    let echo := if s.mvState = .idle ∧ s.cfg.deskPresent = true
      then [.tx 0xA5, .tx 0x00, .tx m, .tx (0xFF - m), .tx 0xFF] else []
    (¬sumsTo [r, m, x] c →
      exec (.remoteKeys r m x c) s = .next { resynced with out := last ++ [.diag 2] }) ∧
    (sumsTo [r, m, x] c →
      exec (.remoteKeys r m x c) s = .next { resynced with
        btnUp := up, btnDown := down, btnM1 := m1, btnM2 := m2, btnM3 := m3,
        out := last ++ [.buttonPub up down m1 m2 m3] ++ echo })

/-- R134: with both transports, any byte sequence on the remote bus completes, and while the core is moving (so that no echo
frame is sent, R133) the desk bus gets exactly those bytes in that order, whatever frames they make. -/
def Obligations.BridgeForwardsEveryByteInOrder : Prop :=
  ∀ (bs : List Byte) (s : State), s.cfg.remotePresent = true → s.cfg.deskPresent = true → s.mvState ≠ .idle →
    ∃ t es, runEvents (bs.map .remRx) s = .next t ∧ t.taken ++ t.out = s.taken ++ s.out ++ es ∧ txBytes es = bs

/-- R134, R205: the forwarded `Tx(b)` is the first output event of its step. -/
def Obligations.BridgedByteIsTheFirstOutput : Prop :=
  ∀ (b : Byte) (s : State), s.cfg.remotePresent = true → s.cfg.deskPresent = true →
    ∃ t es, exec (.remRx b) s = .next t ∧ t.out = s.out ++ .tx b :: es

/-- A consequence of R79 and R80 the spec does not spell out: the bytes of every command frame, sent to the remote scanner, are
a checksum-correct remote frame with the payload as its mask. The five buttons are those of the mask, and their publication is
among what this run emits. -/
def Obligations.CommandFrameReadAsRemoteFrame : Prop :=
  ∀ (p : Byte) (s : State), s.cfg.remotePresent = true → s.rphase = .searching →
    let up := decide (p &&& 0x20 ≠ 0)
    let down := decide (p &&& 0x40 ≠ 0)
    let m1 := decide (p &&& 0x02 ≠ 0)
    let m2 := decide (p &&& 0x04 ≠ 0)
    let m3 := decide (p &&& 0x08 ≠ 0)
    ∃ t es, runEvents ((enc p).map .remRx) s = .next t ∧ t.rphase = .searching ∧
      t.btnUp = up ∧ t.btnDown = down ∧ t.btnM1 = m1 ∧ t.btnM2 = m2 ∧ t.btnM3 = m3 ∧
      t.taken ++ t.out = s.taken ++ s.out ++ es ∧ .buttonPub up down m1 m2 m3 ∈ es

/-! ## Commands -/

/-- R80, R150: `ENC(P)` is `A5 00 P Q FF`, and `Q = 0xFF - P` is the bitwise complement of P, with no borrow. -/
def Obligations.EncBuildsTheCommandFrame : Prop :=
  ∀ p : Byte, enc p = [0xA5, 0x00, p, ~~~p, 0xFF] ∧ (~~~p).toNat = 255 - p.toNat

/-- R152, R153, R154: the preset events, their words and their frames; nothing else changes. -/
def Obligations.PresetsSendTheirFrames : Prop :=
  ∀ s : State,
    decode (.event 0x60000) = .ok .preset1 ∧ decode (.event 0x70000) = .ok .preset2 ∧
    decode (.event 0x80000) = .ok .preset3 ∧
    exec .preset1 s = .next { s with
      out := s.out ++ if s.cfg.deskPresent = true then [.tx 0xA5, .tx 0x00, .tx 0x02, .tx 0xFD, .tx 0xFF] else [] } ∧
    exec .preset2 s = .next { s with
      out := s.out ++ if s.cfg.deskPresent = true then [.tx 0xA5, .tx 0x00, .tx 0x04, .tx 0xFB, .tx 0xFF] else [] } ∧
    exec .preset3 s = .next { s with
      out := s.out ++ if s.cfg.deskPresent = true then [.tx 0xA5, .tx 0x00, .tx 0x08, .tx 0xF7, .tx 0xFF] else [] }

/-- R155: the simulated button, its word and its frame, for every mask; nothing else changes. -/
def Obligations.SimulatedButtonSendsItsMask : Prop :=
  ∀ (m : Byte) (s : State),
    decode (.event (0x9#4 ++ 0x00#8 ++ m)) = .ok (.simBtn m) ∧
    exec (.simBtn m) s = .next { s with
      out := s.out ++ if s.cfg.deskPresent = true then [.tx 0xA5, .tx 0x00, .tx m, .tx (0xFF - m), .tx 0xFF] else [] }

/-- The command-frame rows send their frame and change nothing else. That such a row is an instruction that sends its frame
is the model's choice (log entry 7). -/
def Obligations.CommandFrameRowsSendTheirFrames : Prop :=
  ∀ s : State,
    exec .cmdDriveUp s = .next { s with
      out := s.out ++ if s.cfg.deskPresent = true then [.tx 0xA5, .tx 0x00, .tx 0x20, .tx 0xDF, .tx 0xFF] else [] } ∧
    exec .cmdDriveDown s = .next { s with
      out := s.out ++ if s.cfg.deskPresent = true then [.tx 0xA5, .tx 0x00, .tx 0x40, .tx 0xBF, .tx 0xFF] else [] } ∧
    exec .cmdPreset1 s = .next { s with
      out := s.out ++ if s.cfg.deskPresent = true then [.tx 0xA5, .tx 0x00, .tx 0x02, .tx 0xFD, .tx 0xFF] else [] } ∧
    exec .cmdPreset2 s = .next { s with
      out := s.out ++ if s.cfg.deskPresent = true then [.tx 0xA5, .tx 0x00, .tx 0x04, .tx 0xFB, .tx 0xFF] else [] } ∧
    exec .cmdPreset3 s = .next { s with
      out := s.out ++ if s.cfg.deskPresent = true then [.tx 0xA5, .tx 0x00, .tx 0x08, .tx 0xF7, .tx 0xFF] else [] } ∧
    (∀ p, exec (.cmdButton p) s = .next { s with
      out := s.out ++ if s.cfg.deskPresent = true then [.tx 0xA5, .tx 0x00, .tx p, .tx (0xFF - p), .tx 0xFF] else [] })

/-! ## Movement -/

/-- R170: `MOVE_TO t`, its word and its effect. -/
def Obligations.MoveToSetsTargetAndDirection : Prop :=
  ∀ (t : Tenths) (s : State),
    decode (.event (0x4#4 ++ t)) = .ok (.moveTo t) ∧
    (s.cfg.deskPresent = false → exec (.moveTo t) s = .next s) ∧
    (s.cfg.deskPresent = true → s.curPos.toNat < t.toNat →
      exec (.moveTo t) s = .next { s with tgtPos := t, mvState := .raising }) ∧
    (s.cfg.deskPresent = true → t.toNat ≤ s.curPos.toNat →
      exec (.moveTo t) s = .next { s with tgtPos := t, mvState := .lowering })

/-- R171: `STOP` forces IDLE, sends nothing and keeps the target, with or without the desk. -/
def Obligations.StopForcesIdle : Prop :=
  ∀ s : State, decode (.event 0x50000) = .ok .stop ∧ exec .stop s = .next { s with mvState := .idle }

/-- R172: `CYCLE`, its word and its effect. -/
def Obligations.CycleMovesOrStops : Prop :=
  ∀ s : State,
    decode (.event 0x30000) = .ok .cycle ∧
    (s.mvState = .idle → exec .cycle s = .next s) ∧
    (s.mvState = .raising → s.tgtPos.toNat ≤ s.curPos.toNat → exec .cycle s = .next { s with mvState := .idle }) ∧
    (s.mvState = .lowering → s.curPos.toNat ≤ s.tgtPos.toNat → exec .cycle s = .next { s with mvState := .idle }) ∧
    (s.mvState = .raising → s.curPos.toNat < s.tgtPos.toNat → exec .cycle s = .next { s with
      out := s.out ++ if s.cfg.deskPresent = true then [.tx 0xA5, .tx 0x00, .tx 0x20, .tx 0xDF, .tx 0xFF] else [] }) ∧
    (s.mvState = .lowering → s.tgtPos.toNat < s.curPos.toNat → exec .cycle s = .next { s with
      out := s.out ++ if s.cfg.deskPresent = true then [.tx 0xA5, .tx 0x00, .tx 0x40, .tx 0xBF, .tx 0xFF] else [] })

/-- R173, R174: over every instruction but `MOVE_TO`, the movement state changes only to IDLE, only by `STOP` or `CYCLE`, and
the target not at all; so along any run without a `MOVE_TO` the direction never reverses. -/
def Obligations.DirectionIsFixedWithinOneRequest : Prop :=
  (∀ (i : Instr) (s t : State), exec i s = .next t → (∀ g, i ≠ .moveTo g) →
    t.tgtPos = s.tgtPos ∧ (t.mvState = s.mvState ∨ (t.mvState = .idle ∧ (i = .stop ∨ i = .cycle)))) ∧
  (∀ (is : List Instr) (s t : State), runEvents is s = .next t → (∀ g, Instr.moveTo g ∉ is) →
    t.mvState = s.mvState ∨ t.mvState = .idle)

/-- R176: a target the readings do not reach is driven at for ever: every `CYCLE` of a row of `n` sends one up frame. -/
def Obligations.UnreachedTargetIsDrivenAtEveryCycle : Prop :=
  ∀ (n : Nat) (s : State), s.mvState = .raising → s.curPos.toNat < s.tgtPos.toNat → s.cfg.deskPresent = true →
    ∃ t, runEvents (List.replicate n .cycle) s = .next t ∧ t = { s with taken := t.taken, out := t.out } ∧
      t.taken ++ t.out =
        s.taken ++ s.out ++ (List.replicate n [.tx 0xA5, .tx 0x00, .tx 0x20, .tx 0xDF, .tx 0xFF]).flatten

/-- R172, R225: one control cycle with any desk bytes and no remote bytes completes, and sends the desk bus at most one drive
frame. -/
def Obligations.ControlCycleSendsAtMostOneFrame : Prop :=
  ∀ (desk : List Byte) (s : State), CoreInv s →
    ∃ t es, runEvents (controlCycle desk []) s = .next t ∧ t.taken ++ t.out = s.taken ++ s.out ++ es ∧
      (txBytes es = [] ∨ (s.mvState = .raising ∧ txBytes es = [0xA5, 0x00, 0x20, 0xDF, 0xFF]) ∨
        (s.mvState = .lowering ∧ txBytes es = [0xA5, 0x00, 0x40, 0xBF, 0xFF]))

/-! ## Illegal words and absent transports -/

/-- R73: every illegal event word sets `ill`, emits one `Diag(3)` and changes nothing else: said of the eight illegal rows,
and of the words, with `op` 0x0 or 0xA and above, or with must-be-0 bits of format B or N that are not all 0. -/
def Obligations.IllegalWordsSetIllAndReport : Prop :=
  ∀ s : State,
    (∀ i : Instr,
      (∃ o, i = .reservedOp0 o ∨ i = .reservedOpA o ∨ i = .reservedOpB o ∨ i = .reservedOpC o ∨ i = .reservedOpD o ∨
        i = .reservedOpE o ∨ i = .reservedOpF o ∨ ∃ op, i = .illegalNonzeroMbz op o) →
      exec i s = .next { s with ill := true, out := s.out ++ [.diag 3] }) ∧
    (∀ w : EventWord,
      let op := (w.extractLsb' 16 4).toNat
      (op = 0 ∨ 0xA ≤ op ∨ ((op = 0x1 ∨ op = 0x2 ∨ op = 0x9) ∧ w.extractLsb' 8 8 ≠ 0) ∨
        ((op = 0x3 ∨ op = 0x5 ∨ op = 0x6 ∨ op = 0x7 ∨ op = 0x8) ∧ w.extractLsb' 0 16 ≠ 0)) →
      runOffer (.event w) s = .next { s with ill := true, out := s.out ++ [.diag 3] })

/-- R202, R110, R130, R170: an event on an absent transport is a silent no-op; `REM_RX` without the desk is scanned but not
bridged (R134), which `RemoteByteIsBridgedThenScanned` states. The clauses on the three frame rows, which change nothing but that
the host takes what was pending before their bytes, rest on the model's choice of what a frame row means (log entry 6). -/
def Obligations.AbsentTransportsAreSilent : Prop :=
  ∀ s : State,
    let drained : State := { s with taken := s.taken ++ s.out, out := [] }
    (s.cfg.deskPresent = false →
      (∀ b, exec (.deskRx b) s = .next s) ∧ (∀ t, exec (.moveTo t) s = .next s) ∧ exec .preset1 s = .next s ∧
      exec .preset2 s = .next s ∧ exec .preset3 s = .next s ∧ (∀ m, exec (.simBtn m) s = .next s) ∧
      (∀ h t u y c, exec (.deskStatus6 h t u y c) s = .next drained) ∧
      (∀ h t u c, exec (.deskStatus5 h t u c) s = .next drained)) ∧
    (s.cfg.remotePresent = false →
      (∀ b, exec (.remRx b) s = .next s) ∧ (∀ r m x c, exec (.remoteKeys r m x c) s = .next drained))

/-! ## Outputs -/

/-- R205, R239: one event emits at most seven output events and at most one `Diag`, changes nothing of the record, the script
or the configuration, and leaves what was pending in place. -/
def Obligations.OneEventEmitsAtMostSevenOutputs : Prop :=
  ∀ (i : Instr) (s t : State), i.isEvent = true → exec i s = .next t →
    ∃ es, t.out = s.out ++ es ∧ es.length ≤ 7 ∧ (es.filter OutEvent.isDiag).length ≤ 1 ∧
      t.taken = s.taken ∧ t.host = s.host ∧ t.cfg = s.cfg

/-- R36, R57: outside a reset edge no step drops or reorders an output event: what was taken or pending stays, in order, at
the front of what is taken or pending after it. -/
def Obligations.OutputsAreNeverDroppedOrReordered : Prop :=
  ∀ s t : State, step s = .next t → (∀ x rest, s.host = x :: rest → x.isReset = false) →
    ∃ es, t.taken ++ t.out = s.taken ++ s.out ++ es ∧ ∃ fs, t.taken = s.taken ++ fs

/-- R239: an event offered with no output pending is finished in at most 1 + 7 edges when the host takes an output at every
edge: it is taken at the first, and after seven more nothing is pending and the host has all it emitted, in order. -/
def Obligations.EventFinishesWithinEightEdges : Prop :=
  ∀ (w : EventWord) (i : Instr) (s u : State) (rest : List HostInput),
    s.out = [] → s.host = .edge (eventPins w) :: (List.replicate 7 (.edge readyPins) ++ rest) →
    decode (.event w) = .ok i → exec i s = .next u →
    Sys2Proof.core.run 8 s = .next { u with out := [], taken := s.taken ++ u.out, host := rest }

/-! ## Whole-machine rules -/

/-- The invariant of R22 to R26 and the clauses beside it hold after reset, for every legal configuration. -/
def Obligations.ResetSatisfiesTheInvariant : Prop :=
  CoreInv State.reset ∧
  ∀ (c : Cfg) (es : List OutEvent) (hs : List HostInput), c.segTable.legal = true → (∀ e ∈ es, e.legal) →
    CoreInv (State.resetWith c es hs)

/-- R24 to R26: every step keeps the invariant, from every state that has it. -/
def Obligations.EveryStepKeepsTheInvariant : Prop :=
  ∀ s t : State, CoreInv s → step s = .next t → CoreInv t

/-- R200: no input of a host that keeps its duties stops the core: from every state with the invariant the step answers a
next state, and what is left of the host's script still keeps its duties. -/
def Obligations.NothingEverStopsTheCore : Prop :=
  ∀ s : State, CoreInv s → (∀ x ∈ s.host, x.legal = true) →
    ∃ t, step s = .next t ∧ ∀ x ∈ t.host, x.legal = true

/-- Who writes what, over the event words (R22, R26, R28, R33, R173, R175). The desk scanner and the reading: only `DESK_RX`. The
remote scanner and the buttons: only `REM_RX`. The movement state: only `MOVE_TO`, `STOP` and `CYCLE`. The target: only
`MOVE_TO`. `ill`: only the illegal words. -/
def Obligations.EachElementHasItsOwnWriters : Prop :=
  ∀ (i : Instr) (s t : State), i.isEvent = true → exec i s = .next t →
    ((∀ b, i ≠ .deskRx b) → t.dphase = s.dphase ∧ t.dcnt = s.dcnt ∧ t.dbuf = s.dbuf ∧ t.curPos = s.curPos ∧
      t.posKnown = s.posKnown) ∧
    ((∀ b, i ≠ .remRx b) → t.rphase = s.rphase ∧ t.rcnt = s.rcnt ∧ t.rbuf = s.rbuf ∧ t.btnUp = s.btnUp ∧
      t.btnDown = s.btnDown ∧ t.btnM1 = s.btnM1 ∧ t.btnM2 = s.btnM2 ∧ t.btnM3 = s.btnM3) ∧
    ((∀ g, i ≠ .moveTo g) → i ≠ .stop → i ≠ .cycle → t.mvState = s.mvState) ∧
    ((∀ g, i ≠ .moveTo g) → t.tgtPos = s.tgtPos) ∧
    ((∃ b, i = .deskRx b) ∨ (∃ b, i = .remRx b) ∨ i = .cycle ∨ i = .stop ∨ i = .preset1 ∨ i = .preset2 ∨
      i = .preset3 ∨ (∃ m, i = .simBtn m) ∨ (∃ g, i = .moveTo g) → t.ill = s.ill)

/-- R23, R31, R171: buffer elements at or above the count, and the target while IDLE, cannot be observed: two states that
agree on all else answer every step alike and stay so. -/
def Obligations.DeadStorageCannotBeObserved : Prop :=
  ∀ s t s' : State, CoreInv s → SameToHost s t → step s = .next s' → ∃ t', step t = .next t' ∧ SameToHost s' t'

/-! ## Registers and ports -/

/-- R33, R37: the register images and the level outputs are the state elements in their bits; reserved bits are 0. S5 and S6 are
the images of their phase and count without the buffers, which R33 gives no bits: the model's reading (log entry 24). -/
def Obligations.RegistersAndLevelsShowTheState : Prop :=
  ∀ s : State,
    (regS0 s).toNat = msgLenNat s.cfg.msgLen + 8 * s.cfg.deskPresent.toNat + 16 * s.cfg.remotePresent.toNat ∧
    (regS1 s).toNat = (opState s).toNat + 4 * s.posKnown.toNat + 8 * s.ill.toNat ∧
    (regS2 s) = height s ∧
    (regS3 s).toNat = s.btnUp.toNat + 2 * s.btnDown.toNat + 4 * s.btnM1.toNat + 8 * s.btnM2.toNat + 16 * s.btnM3.toNat ∧
    (regS3 s).toNat = (buttons s).toNat ∧ regS4 s = s.tgtPos ∧
    (regS5 s).toNat = (if s.dphase = .accumulating then 1 else 0) + 2 * s.dcnt.toNat ∧
    (regS6 s).toNat = (if s.rphase = .accumulating then 1 else 0) + 2 * s.rcnt.toNat ∧
    height s = s.curPos ∧ heightValid s = s.posKnown ∧ illLevel s = s.ill ∧
    (opState s = 0 ↔ s.mvState = .idle) ∧ (opState s = 1 ↔ s.mvState = .raising) ∧ (opState s = 2 ↔ s.mvState = .lowering)

/-- R34: what the output port shows for each kind of output event. -/
def Obligations.OutputPortEncodesTheOldestEvent : Prop :=
  ∀ (s : State) (es : List OutEvent),
    (s.out = [] → outValid s = false ∧ evtReady s = true) ∧
    (∀ b, s.out = .tx b :: es → outPort s = some (0, b.setWidth 16)) ∧
    (∀ h, s.out = .heightPub h :: es → outPort s = some (1, h)) ∧
    (∀ u d m1 m2 m3, s.out = .buttonPub u d m1 m2 m3 :: es →
      outPort s = some (2, BitVec.ofNat 16
        (u.toNat + 2 * d.toNat + 4 * m1.toNat + 8 * m2.toNat + 16 * m3.toNat))) ∧
    (∀ c, s.out = .diag c :: es → outPort s = some (3, c.setWidth 16)) ∧
    (s.out ≠ [] → outValid s = true ∧ evtReady s = false)
end

