-- ==== Sys2Proof/Laws/Operands.lean ====
section
/-! SUPPORT. The operand forms in one lemma each: checksums as sums, segment bytes as digits, mask bits, buffers by element. -/

namespace Sys2Proof.Machine

theorem byteSum_eq_sum (bs : List Byte) : byteSum bs = (bs.map BitVec.toNat).sum := by
  induction bs with
  | nil => rfl
  | cons b bs ih => simp [byteSum, ih]

/-- The computed checksum equals a byte exactly when the bytes sum to it mod 256 (R9, R113). -/
theorem checksum_eq_iff (bs : List Byte) (c : Byte) : checksum bs = c ↔ sumsTo bs c := by
  unfold checksum sumsTo
  rw [byteSum_eq_sum]
  constructor
  · intro h; rw [← h]; simp
  · intro h; apply BitVec.eq_of_toNat_eq; simpa using h

/-- A decoded digit's pattern is the byte's bits 6:0 (R102). -/
theorem segdec_pattern {tbl : SegTable} {b : Byte} {d : Digit} (h : segdec tbl b = some d) :
    tbl[d] = b.extractLsb' 0 7 := by
  have := List.find?_some h
  simpa [segPattern] using this

/-- A legal table is injective (R8, R101). -/
theorem legal_injective {tbl : SegTable} (h : tbl.legal = true) {i j : Digit} (e : tbl[i] = tbl[j]) : i = j := by
  simp only [SegTable.legal, Bool.and_eq_true, decide_eq_true_eq] at h
  exact h.1.1.1 i j e

/-- A reading in tenths as an exact number (R114). -/
theorem tenths_toNat (point : Bool) (d0 d1 d2 : Digit) :
    (tenths point (rawReading d0 d1 d2)).toNat =
      (100 * d0.val + 10 * d1.val + d2.val) * (if point then 1 else 10) := by
  unfold tenths rawReading
  have := d0.isLt; have := d1.isLt; have := d2.isLt
  cases point <;> simp <;> omega

/-- What a composed reading is: three digits with the bytes' patterns, and their number in tenths (R114). -/
theorem segReading_digits {tbl : SegTable} {h t u : Byte} {r : Tenths} (e : segReading tbl h t u = some r) :
    ∃ d0 d1 d2 : Digit,
      tbl[d0] = h.extractLsb' 0 7 ∧ tbl[d1] = t.extractLsb' 0 7 ∧ tbl[d2] = u.extractLsb' 0 7 ∧
      r.toNat = (100 * d0.val + 10 * d1.val + d2.val) * (if t.getLsbD 7 then 1 else 10) := by
  unfold segReading at e
  split at e
  · rename_i d0 d1 d2 h0 h1 h2
    cases e
    exact ⟨d0, d1, d2, segdec_pattern h0, segdec_pattern h1, segdec_pattern h2, tenths_toNat _ _ _ _⟩
  · cases e

/-- The five button bits of a mask, as tests against the values of R83. -/
theorem mask_bits : ∀ m : Byte,
    maskUp m = decide (m &&& 0x20 ≠ 0) ∧ maskDown m = decide (m &&& 0x40 ≠ 0) ∧ maskM1 m = decide (m &&& 0x02 ≠ 0) ∧
    maskM2 m = decide (m &&& 0x04 ≠ 0) ∧ maskM3 m = decide (m &&& 0x08 ≠ 0) := by decide

/-- A desk buffer by its five registers (R29). -/
theorem desk_buffer_eta (v : Vector Byte 5) : v = #v[v[0], v[1], v[2], v[3], v[4]] := by
  apply Vector.ext; intro i hi
  have : i = 0 ∨ i = 1 ∨ i = 2 ∨ i = 3 ∨ i = 4 := by omega
  rcases this with rfl | rfl | rfl | rfl | rfl <;> rfl

/-- A remote buffer by its three registers (R30). -/
theorem remote_buffer_eta (v : Vector Byte 3) : v = #v[v[0], v[1], v[2]] := by
  apply Vector.ext; intro i hi
  have : i = 0 ∨ i = 1 ∨ i = 2 := by omega
  rcases this with rfl | rfl | rfl <;> rfl

end Sys2Proof.Machine
end

