-- ==== Sys2Proof/Laws/State.lean ====
section
/-! SUPPORT. One lemma per field per state update, true by rfl, so that no proof unfolds a record update. -/

namespace Sys2Proof.Machine

@[simp] theorem emitAll_dphase (es : List OutEvent) (s : State) : (emitAll es s).dphase = s.dphase := rfl
@[simp] theorem emitAll_dcnt (es : List OutEvent) (s : State) : (emitAll es s).dcnt = s.dcnt := rfl
@[simp] theorem emitAll_dbuf (es : List OutEvent) (s : State) : (emitAll es s).dbuf = s.dbuf := rfl
@[simp] theorem emitAll_rphase (es : List OutEvent) (s : State) : (emitAll es s).rphase = s.rphase := rfl
@[simp] theorem emitAll_rcnt (es : List OutEvent) (s : State) : (emitAll es s).rcnt = s.rcnt := rfl
@[simp] theorem emitAll_rbuf (es : List OutEvent) (s : State) : (emitAll es s).rbuf = s.rbuf := rfl
@[simp] theorem emitAll_mvState (es : List OutEvent) (s : State) : (emitAll es s).mvState = s.mvState := rfl
@[simp] theorem emitAll_tgtPos (es : List OutEvent) (s : State) : (emitAll es s).tgtPos = s.tgtPos := rfl
@[simp] theorem emitAll_curPos (es : List OutEvent) (s : State) : (emitAll es s).curPos = s.curPos := rfl
@[simp] theorem emitAll_posKnown (es : List OutEvent) (s : State) : (emitAll es s).posKnown = s.posKnown := rfl
@[simp] theorem emitAll_btnUp (es : List OutEvent) (s : State) : (emitAll es s).btnUp = s.btnUp := rfl
@[simp] theorem emitAll_btnDown (es : List OutEvent) (s : State) : (emitAll es s).btnDown = s.btnDown := rfl
@[simp] theorem emitAll_btnM1 (es : List OutEvent) (s : State) : (emitAll es s).btnM1 = s.btnM1 := rfl
@[simp] theorem emitAll_btnM2 (es : List OutEvent) (s : State) : (emitAll es s).btnM2 = s.btnM2 := rfl
@[simp] theorem emitAll_btnM3 (es : List OutEvent) (s : State) : (emitAll es s).btnM3 = s.btnM3 := rfl
@[simp] theorem emitAll_ill (es : List OutEvent) (s : State) : (emitAll es s).ill = s.ill := rfl
@[simp] theorem emitAll_cfg (es : List OutEvent) (s : State) : (emitAll es s).cfg = s.cfg := rfl
@[simp] theorem emitAll_out (es : List OutEvent) (s : State) : (emitAll es s).out = s.out ++ es := rfl
@[simp] theorem emitAll_taken (es : List OutEvent) (s : State) : (emitAll es s).taken = s.taken := rfl
@[simp] theorem emitAll_host (es : List OutEvent) (s : State) : (emitAll es s).host = s.host := rfl

@[simp] theorem setPosKnown_dphase (s : State) : (setPosKnown s).dphase = s.dphase := rfl
@[simp] theorem setPosKnown_dcnt (s : State) : (setPosKnown s).dcnt = s.dcnt := rfl
@[simp] theorem setPosKnown_dbuf (s : State) : (setPosKnown s).dbuf = s.dbuf := rfl
@[simp] theorem setPosKnown_rphase (s : State) : (setPosKnown s).rphase = s.rphase := rfl
@[simp] theorem setPosKnown_rcnt (s : State) : (setPosKnown s).rcnt = s.rcnt := rfl
@[simp] theorem setPosKnown_rbuf (s : State) : (setPosKnown s).rbuf = s.rbuf := rfl
@[simp] theorem setPosKnown_mvState (s : State) : (setPosKnown s).mvState = s.mvState := rfl
@[simp] theorem setPosKnown_tgtPos (s : State) : (setPosKnown s).tgtPos = s.tgtPos := rfl
@[simp] theorem setPosKnown_curPos (s : State) : (setPosKnown s).curPos = s.curPos := rfl
@[simp] theorem setPosKnown_posKnown (s : State) : (setPosKnown s).posKnown = true := rfl
@[simp] theorem setPosKnown_btnUp (s : State) : (setPosKnown s).btnUp = s.btnUp := rfl
@[simp] theorem setPosKnown_btnDown (s : State) : (setPosKnown s).btnDown = s.btnDown := rfl
@[simp] theorem setPosKnown_btnM1 (s : State) : (setPosKnown s).btnM1 = s.btnM1 := rfl
@[simp] theorem setPosKnown_btnM2 (s : State) : (setPosKnown s).btnM2 = s.btnM2 := rfl
@[simp] theorem setPosKnown_btnM3 (s : State) : (setPosKnown s).btnM3 = s.btnM3 := rfl
@[simp] theorem setPosKnown_ill (s : State) : (setPosKnown s).ill = s.ill := rfl
@[simp] theorem setPosKnown_cfg (s : State) : (setPosKnown s).cfg = s.cfg := rfl
@[simp] theorem setPosKnown_out (s : State) : (setPosKnown s).out = s.out := rfl
@[simp] theorem setPosKnown_taken (s : State) : (setPosKnown s).taken = s.taken := rfl
@[simp] theorem setPosKnown_host (s : State) : (setPosKnown s).host = s.host := rfl

@[simp] theorem setIll_dphase (s : State) : (setIll s).dphase = s.dphase := rfl
@[simp] theorem setIll_dcnt (s : State) : (setIll s).dcnt = s.dcnt := rfl
@[simp] theorem setIll_dbuf (s : State) : (setIll s).dbuf = s.dbuf := rfl
@[simp] theorem setIll_rphase (s : State) : (setIll s).rphase = s.rphase := rfl
@[simp] theorem setIll_rcnt (s : State) : (setIll s).rcnt = s.rcnt := rfl
@[simp] theorem setIll_rbuf (s : State) : (setIll s).rbuf = s.rbuf := rfl
@[simp] theorem setIll_mvState (s : State) : (setIll s).mvState = s.mvState := rfl
@[simp] theorem setIll_tgtPos (s : State) : (setIll s).tgtPos = s.tgtPos := rfl
@[simp] theorem setIll_curPos (s : State) : (setIll s).curPos = s.curPos := rfl
@[simp] theorem setIll_posKnown (s : State) : (setIll s).posKnown = s.posKnown := rfl
@[simp] theorem setIll_btnUp (s : State) : (setIll s).btnUp = s.btnUp := rfl
@[simp] theorem setIll_btnDown (s : State) : (setIll s).btnDown = s.btnDown := rfl
@[simp] theorem setIll_btnM1 (s : State) : (setIll s).btnM1 = s.btnM1 := rfl
@[simp] theorem setIll_btnM2 (s : State) : (setIll s).btnM2 = s.btnM2 := rfl
@[simp] theorem setIll_btnM3 (s : State) : (setIll s).btnM3 = s.btnM3 := rfl
@[simp] theorem setIll_ill (s : State) : (setIll s).ill = true := rfl
@[simp] theorem setIll_cfg (s : State) : (setIll s).cfg = s.cfg := rfl
@[simp] theorem setIll_out (s : State) : (setIll s).out = s.out := rfl
@[simp] theorem setIll_taken (s : State) : (setIll s).taken = s.taken := rfl
@[simp] theorem setIll_host (s : State) : (setIll s).host = s.host := rfl

@[simp] theorem deskResync_dphase (s : State) : (deskResync s).dphase = .searching := rfl
@[simp] theorem deskResync_dcnt (s : State) : (deskResync s).dcnt = 0 := rfl
@[simp] theorem deskResync_dbuf (s : State) : (deskResync s).dbuf = #v[0x00, 0x00, 0x00, 0x00, 0x00] := rfl
@[simp] theorem deskResync_rphase (s : State) : (deskResync s).rphase = s.rphase := rfl
@[simp] theorem deskResync_rcnt (s : State) : (deskResync s).rcnt = s.rcnt := rfl
@[simp] theorem deskResync_rbuf (s : State) : (deskResync s).rbuf = s.rbuf := rfl
@[simp] theorem deskResync_mvState (s : State) : (deskResync s).mvState = s.mvState := rfl
@[simp] theorem deskResync_tgtPos (s : State) : (deskResync s).tgtPos = s.tgtPos := rfl
@[simp] theorem deskResync_curPos (s : State) : (deskResync s).curPos = s.curPos := rfl
@[simp] theorem deskResync_posKnown (s : State) : (deskResync s).posKnown = s.posKnown := rfl
@[simp] theorem deskResync_btnUp (s : State) : (deskResync s).btnUp = s.btnUp := rfl
@[simp] theorem deskResync_btnDown (s : State) : (deskResync s).btnDown = s.btnDown := rfl
@[simp] theorem deskResync_btnM1 (s : State) : (deskResync s).btnM1 = s.btnM1 := rfl
@[simp] theorem deskResync_btnM2 (s : State) : (deskResync s).btnM2 = s.btnM2 := rfl
@[simp] theorem deskResync_btnM3 (s : State) : (deskResync s).btnM3 = s.btnM3 := rfl
@[simp] theorem deskResync_ill (s : State) : (deskResync s).ill = s.ill := rfl
@[simp] theorem deskResync_cfg (s : State) : (deskResync s).cfg = s.cfg := rfl
@[simp] theorem deskResync_out (s : State) : (deskResync s).out = s.out := rfl
@[simp] theorem deskResync_taken (s : State) : (deskResync s).taken = s.taken := rfl
@[simp] theorem deskResync_host (s : State) : (deskResync s).host = s.host := rfl

@[simp] theorem remResync_dphase (s : State) : (remResync s).dphase = s.dphase := rfl
@[simp] theorem remResync_dcnt (s : State) : (remResync s).dcnt = s.dcnt := rfl
@[simp] theorem remResync_dbuf (s : State) : (remResync s).dbuf = s.dbuf := rfl
@[simp] theorem remResync_rphase (s : State) : (remResync s).rphase = .searching := rfl
@[simp] theorem remResync_rcnt (s : State) : (remResync s).rcnt = 0 := rfl
@[simp] theorem remResync_rbuf (s : State) : (remResync s).rbuf = #v[0x00, 0x00, 0x00] := rfl
@[simp] theorem remResync_mvState (s : State) : (remResync s).mvState = s.mvState := rfl
@[simp] theorem remResync_tgtPos (s : State) : (remResync s).tgtPos = s.tgtPos := rfl
@[simp] theorem remResync_curPos (s : State) : (remResync s).curPos = s.curPos := rfl
@[simp] theorem remResync_posKnown (s : State) : (remResync s).posKnown = s.posKnown := rfl
@[simp] theorem remResync_btnUp (s : State) : (remResync s).btnUp = s.btnUp := rfl
@[simp] theorem remResync_btnDown (s : State) : (remResync s).btnDown = s.btnDown := rfl
@[simp] theorem remResync_btnM1 (s : State) : (remResync s).btnM1 = s.btnM1 := rfl
@[simp] theorem remResync_btnM2 (s : State) : (remResync s).btnM2 = s.btnM2 := rfl
@[simp] theorem remResync_btnM3 (s : State) : (remResync s).btnM3 = s.btnM3 := rfl
@[simp] theorem remResync_ill (s : State) : (remResync s).ill = s.ill := rfl
@[simp] theorem remResync_cfg (s : State) : (remResync s).cfg = s.cfg := rfl
@[simp] theorem remResync_out (s : State) : (remResync s).out = s.out := rfl
@[simp] theorem remResync_taken (s : State) : (remResync s).taken = s.taken := rfl
@[simp] theorem remResync_host (s : State) : (remResync s).host = s.host := rfl

@[simp] theorem deskAppend_dphase (b : Byte) (s : State) : (deskAppend b s).dphase = s.dphase := rfl
@[simp] theorem deskAppend_dcnt (b : Byte) (s : State) : (deskAppend b s).dcnt = s.dcnt + 1 := rfl
@[simp] theorem deskAppend_dbuf (b : Byte) (s : State) : (deskAppend b s).dbuf = s.dbuf.setIfInBounds s.dcnt.toNat b := rfl
@[simp] theorem deskAppend_rphase (b : Byte) (s : State) : (deskAppend b s).rphase = s.rphase := rfl
@[simp] theorem deskAppend_rcnt (b : Byte) (s : State) : (deskAppend b s).rcnt = s.rcnt := rfl
@[simp] theorem deskAppend_rbuf (b : Byte) (s : State) : (deskAppend b s).rbuf = s.rbuf := rfl
@[simp] theorem deskAppend_mvState (b : Byte) (s : State) : (deskAppend b s).mvState = s.mvState := rfl
@[simp] theorem deskAppend_tgtPos (b : Byte) (s : State) : (deskAppend b s).tgtPos = s.tgtPos := rfl
@[simp] theorem deskAppend_curPos (b : Byte) (s : State) : (deskAppend b s).curPos = s.curPos := rfl
@[simp] theorem deskAppend_posKnown (b : Byte) (s : State) : (deskAppend b s).posKnown = s.posKnown := rfl
@[simp] theorem deskAppend_btnUp (b : Byte) (s : State) : (deskAppend b s).btnUp = s.btnUp := rfl
@[simp] theorem deskAppend_btnDown (b : Byte) (s : State) : (deskAppend b s).btnDown = s.btnDown := rfl
@[simp] theorem deskAppend_btnM1 (b : Byte) (s : State) : (deskAppend b s).btnM1 = s.btnM1 := rfl
@[simp] theorem deskAppend_btnM2 (b : Byte) (s : State) : (deskAppend b s).btnM2 = s.btnM2 := rfl
@[simp] theorem deskAppend_btnM3 (b : Byte) (s : State) : (deskAppend b s).btnM3 = s.btnM3 := rfl
@[simp] theorem deskAppend_ill (b : Byte) (s : State) : (deskAppend b s).ill = s.ill := rfl
@[simp] theorem deskAppend_cfg (b : Byte) (s : State) : (deskAppend b s).cfg = s.cfg := rfl
@[simp] theorem deskAppend_out (b : Byte) (s : State) : (deskAppend b s).out = s.out := rfl
@[simp] theorem deskAppend_taken (b : Byte) (s : State) : (deskAppend b s).taken = s.taken := rfl
@[simp] theorem deskAppend_host (b : Byte) (s : State) : (deskAppend b s).host = s.host := rfl

@[simp] theorem remAppend_dphase (b : Byte) (s : State) : (remAppend b s).dphase = s.dphase := rfl
@[simp] theorem remAppend_dcnt (b : Byte) (s : State) : (remAppend b s).dcnt = s.dcnt := rfl
@[simp] theorem remAppend_dbuf (b : Byte) (s : State) : (remAppend b s).dbuf = s.dbuf := rfl
@[simp] theorem remAppend_rphase (b : Byte) (s : State) : (remAppend b s).rphase = s.rphase := rfl
@[simp] theorem remAppend_rcnt (b : Byte) (s : State) : (remAppend b s).rcnt = s.rcnt + 1 := rfl
@[simp] theorem remAppend_rbuf (b : Byte) (s : State) : (remAppend b s).rbuf = s.rbuf.setIfInBounds s.rcnt.toNat b := rfl
@[simp] theorem remAppend_mvState (b : Byte) (s : State) : (remAppend b s).mvState = s.mvState := rfl
@[simp] theorem remAppend_tgtPos (b : Byte) (s : State) : (remAppend b s).tgtPos = s.tgtPos := rfl
@[simp] theorem remAppend_curPos (b : Byte) (s : State) : (remAppend b s).curPos = s.curPos := rfl
@[simp] theorem remAppend_posKnown (b : Byte) (s : State) : (remAppend b s).posKnown = s.posKnown := rfl
@[simp] theorem remAppend_btnUp (b : Byte) (s : State) : (remAppend b s).btnUp = s.btnUp := rfl
@[simp] theorem remAppend_btnDown (b : Byte) (s : State) : (remAppend b s).btnDown = s.btnDown := rfl
@[simp] theorem remAppend_btnM1 (b : Byte) (s : State) : (remAppend b s).btnM1 = s.btnM1 := rfl
@[simp] theorem remAppend_btnM2 (b : Byte) (s : State) : (remAppend b s).btnM2 = s.btnM2 := rfl
@[simp] theorem remAppend_btnM3 (b : Byte) (s : State) : (remAppend b s).btnM3 = s.btnM3 := rfl
@[simp] theorem remAppend_ill (b : Byte) (s : State) : (remAppend b s).ill = s.ill := rfl
@[simp] theorem remAppend_cfg (b : Byte) (s : State) : (remAppend b s).cfg = s.cfg := rfl
@[simp] theorem remAppend_out (b : Byte) (s : State) : (remAppend b s).out = s.out := rfl
@[simp] theorem remAppend_taken (b : Byte) (s : State) : (remAppend b s).taken = s.taken := rfl
@[simp] theorem remAppend_host (b : Byte) (s : State) : (remAppend b s).host = s.host := rfl

@[simp] theorem setButtons_dphase (m : Byte) (s : State) : (setButtons m s).dphase = s.dphase := rfl
@[simp] theorem setButtons_dcnt (m : Byte) (s : State) : (setButtons m s).dcnt = s.dcnt := rfl
@[simp] theorem setButtons_dbuf (m : Byte) (s : State) : (setButtons m s).dbuf = s.dbuf := rfl
@[simp] theorem setButtons_rphase (m : Byte) (s : State) : (setButtons m s).rphase = s.rphase := rfl
@[simp] theorem setButtons_rcnt (m : Byte) (s : State) : (setButtons m s).rcnt = s.rcnt := rfl
@[simp] theorem setButtons_rbuf (m : Byte) (s : State) : (setButtons m s).rbuf = s.rbuf := rfl
@[simp] theorem setButtons_mvState (m : Byte) (s : State) : (setButtons m s).mvState = s.mvState := rfl
@[simp] theorem setButtons_tgtPos (m : Byte) (s : State) : (setButtons m s).tgtPos = s.tgtPos := rfl
@[simp] theorem setButtons_curPos (m : Byte) (s : State) : (setButtons m s).curPos = s.curPos := rfl
@[simp] theorem setButtons_posKnown (m : Byte) (s : State) : (setButtons m s).posKnown = s.posKnown := rfl
@[simp] theorem setButtons_btnUp (m : Byte) (s : State) : (setButtons m s).btnUp = maskUp m := rfl
@[simp] theorem setButtons_btnDown (m : Byte) (s : State) : (setButtons m s).btnDown = maskDown m := rfl
@[simp] theorem setButtons_btnM1 (m : Byte) (s : State) : (setButtons m s).btnM1 = maskM1 m := rfl
@[simp] theorem setButtons_btnM2 (m : Byte) (s : State) : (setButtons m s).btnM2 = maskM2 m := rfl
@[simp] theorem setButtons_btnM3 (m : Byte) (s : State) : (setButtons m s).btnM3 = maskM3 m := rfl
@[simp] theorem setButtons_ill (m : Byte) (s : State) : (setButtons m s).ill = s.ill := rfl
@[simp] theorem setButtons_cfg (m : Byte) (s : State) : (setButtons m s).cfg = s.cfg := rfl
@[simp] theorem setButtons_out (m : Byte) (s : State) : (setButtons m s).out = s.out := rfl
@[simp] theorem setButtons_taken (m : Byte) (s : State) : (setButtons m s).taken = s.taken := rfl
@[simp] theorem setButtons_host (m : Byte) (s : State) : (setButtons m s).host = s.host := rfl

@[simp] theorem takeAll_dphase (s : State) : (takeAll s).dphase = s.dphase := rfl
@[simp] theorem takeAll_dcnt (s : State) : (takeAll s).dcnt = s.dcnt := rfl
@[simp] theorem takeAll_dbuf (s : State) : (takeAll s).dbuf = s.dbuf := rfl
@[simp] theorem takeAll_rphase (s : State) : (takeAll s).rphase = s.rphase := rfl
@[simp] theorem takeAll_rcnt (s : State) : (takeAll s).rcnt = s.rcnt := rfl
@[simp] theorem takeAll_rbuf (s : State) : (takeAll s).rbuf = s.rbuf := rfl
@[simp] theorem takeAll_mvState (s : State) : (takeAll s).mvState = s.mvState := rfl
@[simp] theorem takeAll_tgtPos (s : State) : (takeAll s).tgtPos = s.tgtPos := rfl
@[simp] theorem takeAll_curPos (s : State) : (takeAll s).curPos = s.curPos := rfl
@[simp] theorem takeAll_posKnown (s : State) : (takeAll s).posKnown = s.posKnown := rfl
@[simp] theorem takeAll_btnUp (s : State) : (takeAll s).btnUp = s.btnUp := rfl
@[simp] theorem takeAll_btnDown (s : State) : (takeAll s).btnDown = s.btnDown := rfl
@[simp] theorem takeAll_btnM1 (s : State) : (takeAll s).btnM1 = s.btnM1 := rfl
@[simp] theorem takeAll_btnM2 (s : State) : (takeAll s).btnM2 = s.btnM2 := rfl
@[simp] theorem takeAll_btnM3 (s : State) : (takeAll s).btnM3 = s.btnM3 := rfl
@[simp] theorem takeAll_ill (s : State) : (takeAll s).ill = s.ill := rfl
@[simp] theorem takeAll_cfg (s : State) : (takeAll s).cfg = s.cfg := rfl
@[simp] theorem takeAll_out (s : State) : (takeAll s).out = [] := rfl
@[simp] theorem takeAll_taken (s : State) : (takeAll s).taken = s.taken ++ s.out := rfl
@[simp] theorem takeAll_host (s : State) : (takeAll s).host = s.host := rfl

@[simp] theorem resetWith_dphase (c : Cfg) (es : List OutEvent) (hs : List HostInput) :
    (State.resetWith c es hs).dphase = .searching := rfl
@[simp] theorem resetWith_dcnt (c : Cfg) (es : List OutEvent) (hs : List HostInput) :
    (State.resetWith c es hs).dcnt = 0 := rfl
@[simp] theorem resetWith_dbuf (c : Cfg) (es : List OutEvent) (hs : List HostInput) :
    (State.resetWith c es hs).dbuf = #v[0x00, 0x00, 0x00, 0x00, 0x00] := rfl
@[simp] theorem resetWith_rphase (c : Cfg) (es : List OutEvent) (hs : List HostInput) :
    (State.resetWith c es hs).rphase = .searching := rfl
@[simp] theorem resetWith_rcnt (c : Cfg) (es : List OutEvent) (hs : List HostInput) :
    (State.resetWith c es hs).rcnt = 0 := rfl
@[simp] theorem resetWith_rbuf (c : Cfg) (es : List OutEvent) (hs : List HostInput) :
    (State.resetWith c es hs).rbuf = #v[0x00, 0x00, 0x00] := rfl
@[simp] theorem resetWith_mvState (c : Cfg) (es : List OutEvent) (hs : List HostInput) :
    (State.resetWith c es hs).mvState = .idle := rfl
@[simp] theorem resetWith_tgtPos (c : Cfg) (es : List OutEvent) (hs : List HostInput) :
    (State.resetWith c es hs).tgtPos = 0 := rfl
@[simp] theorem resetWith_curPos (c : Cfg) (es : List OutEvent) (hs : List HostInput) :
    (State.resetWith c es hs).curPos = 0 := rfl
@[simp] theorem resetWith_posKnown (c : Cfg) (es : List OutEvent) (hs : List HostInput) :
    (State.resetWith c es hs).posKnown = false := rfl
@[simp] theorem resetWith_btnUp (c : Cfg) (es : List OutEvent) (hs : List HostInput) :
    (State.resetWith c es hs).btnUp = false := rfl
@[simp] theorem resetWith_btnDown (c : Cfg) (es : List OutEvent) (hs : List HostInput) :
    (State.resetWith c es hs).btnDown = false := rfl
@[simp] theorem resetWith_btnM1 (c : Cfg) (es : List OutEvent) (hs : List HostInput) :
    (State.resetWith c es hs).btnM1 = false := rfl
@[simp] theorem resetWith_btnM2 (c : Cfg) (es : List OutEvent) (hs : List HostInput) :
    (State.resetWith c es hs).btnM2 = false := rfl
@[simp] theorem resetWith_btnM3 (c : Cfg) (es : List OutEvent) (hs : List HostInput) :
    (State.resetWith c es hs).btnM3 = false := rfl
@[simp] theorem resetWith_ill (c : Cfg) (es : List OutEvent) (hs : List HostInput) :
    (State.resetWith c es hs).ill = false := rfl
@[simp] theorem resetWith_cfg (c : Cfg) (es : List OutEvent) (hs : List HostInput) :
    (State.resetWith c es hs).cfg = c := rfl
@[simp] theorem resetWith_out (c : Cfg) (es : List OutEvent) (hs : List HostInput) :
    (State.resetWith c es hs).out = [] := rfl
@[simp] theorem resetWith_taken (c : Cfg) (es : List OutEvent) (hs : List HostInput) :
    (State.resetWith c es hs).taken = es := rfl
@[simp] theorem resetWith_host (c : Cfg) (es : List OutEvent) (hs : List HostInput) :
    (State.resetWith c es hs).host = hs := rfl

end Sys2Proof.Machine
end

