-- ==== Sys2Proof/Laws/Ops.lean ====
section
/-! SUPPORT. Each shared operation in one lemma: everything it can do. -/

namespace Sys2Proof.Machine

@[simp] theorem emit_eq (e : OutEvent) (s : State) : emit e s = emitAll [e] s := rfl

@[simp] theorem report_eq (c : BitVec 2) (s : State) : report c s = emitAll [.diag c] s := rfl

@[simp] theorem emitAll_nil (s : State) : emitAll [] s = s := by
  simp [emitAll]

@[simp] theorem emitAll_emitAll (es fs : List OutEvent) (s : State) :
    emitAll fs (emitAll es s) = emitAll (es ++ fs) s := by
  simp [emitAll]

theorem frameEvents_eq (p : Byte) :
    frameEvents p = [.tx 0xA5, .tx 0x00, .tx p, .tx (0xFF - p), .tx 0xFF] := rfl

@[simp] theorem frameEvents_length (p : Byte) : (frameEvents p).length = 5 := rfl

/-- `TxFrame(P)` emits the frame or nothing, and does nothing else (R11). -/
theorem txFrame_eq (p : Byte) (s : State) :
    txFrame p s = emitAll (if s.cfg.deskPresent then frameEvents p else []) s := by
  unfold txFrame; split <;> simp_all

/-- The bridge emits the byte or nothing, and does nothing else (R134). -/
theorem bridge_eq (b : Byte) (s : State) :
    bridge b s = emitAll (if s.cfg.deskPresent then [.tx b] else []) s := by
  unfold bridge; split <;> simp_all

/-- An illegal word sets `ill` and emits `Diag(3)` (R73). -/
theorem illegalWord_eq (s : State) : illegalWord s = emitAll [.diag 3] (setIll s) := rfl

/-- A publication of the buttons as they stand (R133). -/
theorem publishButtons_eq (s : State) :
    publishButtons s = emitAll [.buttonPub s.btnUp s.btnDown s.btnM1 s.btnM2 s.btnM3] s := rfl

/-- What a sequence of operations answers a next state through. -/
theorem andThen_next {r : Result} {f : State → Result} {t : State} :
    andThen r f = .next t ↔ ∃ s, r = .next s ∧ f s = .next t := by
  cases r <;> simp [andThen]

@[simp] theorem andThen_of_next (s : State) (f : State → Result) : andThen (.next s) f = f s := rfl

@[simp] theorem forBytes_nil (f : Byte → State → Result) (s : State) : forBytes f [] s = .next s := rfl

/-- With nothing pending there is nothing to take. -/
theorem takeAll_of_out_nil {s : State} (h : s.out = []) : takeAll s = s := by
  cases s; simp_all [takeAll]

@[simp] theorem takeAll_takeAll (s : State) : takeAll (takeAll s) = takeAll s := takeAll_of_out_nil rfl

@[simp] theorem forBytes_cons (f : Byte → State → Result) (b : Byte) (bs : List Byte) (s : State) :
    forBytes f (b :: bs) s = andThen (f b (takeAll s)) (forBytes f bs) := rfl

/-- A relation between states that every byte and the taking of outputs keep, and that composes, is kept by a sequence of
bytes. -/
theorem forBytes_rel {f : Byte → State → Result} {R : State → State → Prop} (refl : ∀ s, R s s)
    (trans : ∀ s t u, R s t → R t u → R s u) (take : ∀ s, R s (takeAll s)) (one : ∀ b s t, f b s = .next t → R s t) :
    ∀ bs s t, forBytes f bs s = .next t → R s t
  | [], s, t, h => by cases h; exact refl s
  | b :: bs, s, t, h => by
    obtain ⟨u, hu, ht⟩ := andThen_next.1 h
    exact trans s u t (trans _ _ _ (take s) (one b _ u hu)) (forBytes_rel refl trans take one bs u t ht)

/-- A predicate that every byte and the taking of outputs keep is kept by a sequence of bytes. -/
theorem forBytes_keeps {f : Byte → State → Result} {P : State → Prop} (take : ∀ s, P s → P (takeAll s))
    (one : ∀ b s t, P s → f b s = .next t → P t) :
    ∀ bs s t, P s → forBytes f bs s = .next t → P t
  | [], s, t, hp, h => by cases h; exact hp
  | b :: bs, s, t, hp, h => by
    obtain ⟨u, hu, ht⟩ := andThen_next.1 h
    exact forBytes_keeps take one bs u t (one b _ u (take s hp) hu) ht

/-- A sequence of bytes completes from a state with `P` when every byte does and keeps `P`, and the taking of outputs too. -/
theorem forBytes_completes {f : Byte → State → Result} {P : State → Prop} (take : ∀ s, P s → P (takeAll s))
    (one : ∀ b s, P s → ∃ t, f b s = .next t ∧ P t) :
    ∀ bs s, P s → ∃ t, forBytes f bs s = .next t ∧ P t
  | [], s, hp => ⟨s, rfl, hp⟩
  | b :: bs, s, hp => by
    obtain ⟨u, hu, pu⟩ := one b _ (take s hp)
    obtain ⟨t, ht, pt⟩ := forBytes_completes take one bs u pu
    exact ⟨t, by rw [forBytes_cons, hu]; exact ht, pt⟩

/-- An accepted reading sets `cur_pos` and `pos_known` and is published when new (R114). -/
theorem acceptReading_eq (h : Tenths) (s : State) :
    acceptReading h s =
      { s with
        curPos := h, posKnown := true,
        out := s.out ++ if s.posKnown = false ∨ h ≠ s.curPos then [.heightPub h] else [] } := by
  unfold acceptReading setPosKnown emit emitAll
  by_cases hc : s.posKnown = false ∨ h ≠ s.curPos
  · simp only [hc, if_true]
  · simp only [hc, if_false, List.append_nil]

/-- A valid remote frame sets the buttons, publishes them and echoes when idle; nothing else (R133). -/
theorem remAccept_eq (m : Byte) (s : State) :
    remAccept m s =
      emitAll (.buttonPub (maskUp m) (maskDown m) (maskM1 m) (maskM2 m) (maskM3 m) ::
        if s.mvState = .idle ∧ s.cfg.deskPresent = true then frameEvents m else []) (setButtons m s) := by
  unfold remAccept
  by_cases hm : s.mvState = .idle <;> cases hd : s.cfg.deskPresent <;>
    simp [hm, hd, publishButtons_eq, txFrame_eq]

/-- Everything one desk byte can do when it answers a next state (R110 to R113): nothing; a start byte; a stored byte; a
finished frame. -/
theorem deskByte_cases {b : Byte} {s t : State} (h : deskByte b s = .next t) :
    t = s ∨
    (s.cfg.deskPresent = true ∧ s.dphase = .searching ∧ b = 0x5A ∧
      t = { s with dphase := .accumulating, dcnt := 0 }) ∨
    (s.cfg.deskPresent = true ∧ s.dphase = .accumulating ∧ s.dcnt.toNat < 5 ∧
      s.dcnt.toNat + 1 < msgLenNat s.cfg.msgLen - 1 ∧ t = deskAppend b s) ∨
    (s.cfg.deskPresent = true ∧ s.dphase = .accumulating ∧ s.dcnt.toNat < 5 ∧
      ¬s.dcnt.toNat + 1 < msgLenNat s.cfg.msgLen - 1 ∧ t = deskFrame (deskAppend b s)) := by
  unfold deskByte at h
  split at h
  · rename_i hd
    split at h
    · rename_i hp
      unfold deskSearch at h
      split at h
      · cases h; exact .inr (.inl ⟨hd, hp, by assumption, rfl⟩)
      · cases h; exact .inl rfl
    · rename_i hp
      unfold deskAccum at h
      split at h
      · split at h
        · cases h; exact .inr (.inr (.inl ⟨hd, hp, by assumption, by assumption, rfl⟩))
        · cases h; exact .inr (.inr (.inr ⟨hd, hp, by assumption, by assumption, rfl⟩))
      · cases h
  · cases h; exact .inl rfl

/-- Everything a finished desk frame can do (R113 to R115). -/
theorem deskFrame_cases (s : State) :
    (deskSum s ≠ deskCheckByte s ∧ deskFrame s = deskResync (emitAll [.diag 1] s)) ∨
    (deskSum s = deskCheckByte s ∧ deskReading s = none ∧ deskFrame s = deskResync s) ∨
    (∃ h, deskSum s = deskCheckByte s ∧ deskReading s = some h ∧ deskFrame s = deskResync (acceptReading h s)) := by
  unfold deskFrame deskInterpret
  by_cases hc : deskSum s = deskCheckByte s
  · cases hr : deskReading s with
    | none => exact .inr (.inl ⟨hc, rfl, by simp [hc]⟩)
    | some h => exact .inr (.inr ⟨h, hc, rfl, by simp [hc]⟩)
  · exact .inl ⟨hc, by simp [hc]⟩

/-- Everything one remote byte can do when it answers a next state (R130 to R132): nothing; bridged and discarded; bridged and
a start byte; bridged and stored; bridged and a finished frame. -/
theorem remByte_cases {b : Byte} {s t : State} (h : remByte b s = .next t) :
    (s.cfg.remotePresent = false ∧ t = s) ∨
    (s.cfg.remotePresent = true ∧ s.rphase = .searching ∧ b ≠ 0xA5 ∧ t = bridge b s) ∨
    (s.cfg.remotePresent = true ∧ s.rphase = .searching ∧ b = 0xA5 ∧
      t = { bridge b s with rphase := .accumulating, rcnt := 0 }) ∨
    (s.cfg.remotePresent = true ∧ s.rphase = .accumulating ∧ s.rcnt.toNat < 3 ∧ t = remAppend b (bridge b s)) ∨
    (s.cfg.remotePresent = true ∧ s.rphase = .accumulating ∧ ¬s.rcnt.toNat < 3 ∧ t = remCheck b (bridge b s)) := by
  unfold remByte at h
  split at h
  · rename_i hr
    unfold remScan remSearch remAccum at h
    simp only [bridge_eq, emitAll_rphase, emitAll_rcnt] at h ⊢
    split at h
    · rename_i hp
      split at h
      · cases h; exact .inr (.inr (.inl ⟨hr, hp, by assumption, rfl⟩))
      · cases h; exact .inr (.inl ⟨hr, hp, by assumption, rfl⟩)
    · rename_i hp
      split at h
      · cases h; exact .inr (.inr (.inr (.inl ⟨hr, hp, by assumption, rfl⟩)))
      · cases h; exact .inr (.inr (.inr (.inr ⟨hr, hp, by assumption, rfl⟩)))
  · rename_i hr
    cases h
    exact .inl ⟨by simpa using hr, rfl⟩

/-- Everything a finished remote frame can do (R132, R135). -/
theorem remCheck_cases (c : Byte) (s : State) :
    (checksum [s.rbuf[0], s.rbuf[1], s.rbuf[2]] ≠ c ∧ remCheck c s = remResync (emitAll [.diag 2] s)) ∨
    (checksum [s.rbuf[0], s.rbuf[1], s.rbuf[2]] = c ∧ remCheck c s = remResync (remAccept s.rbuf[1] s)) := by
  unfold remCheck
  by_cases hc : checksum [s.rbuf[0], s.rbuf[1], s.rbuf[2]] = c
  · exact .inr ⟨hc, by simp [hc]⟩
  · exact .inl ⟨hc, by simp [hc]⟩

/-- Everything `CYCLE` can do (R172). -/
theorem execCycle_cases (s : State) :
    (s.mvState = .idle ∧ execCycle s = .next s) ∨
    (s.mvState = .raising ∧ s.tgtPos ≤ s.curPos ∧ execCycle s = .next { s with mvState := .idle }) ∨
    (s.mvState = .raising ∧ ¬s.tgtPos ≤ s.curPos ∧ execCycle s = .next (txFrame driveUp s)) ∨
    (s.mvState = .lowering ∧ s.curPos ≤ s.tgtPos ∧ execCycle s = .next { s with mvState := .idle }) ∨
    (s.mvState = .lowering ∧ ¬s.curPos ≤ s.tgtPos ∧ execCycle s = .next (txFrame driveDown s)) := by
  unfold execCycle
  cases hm : s.mvState
  · exact .inl ⟨rfl, rfl⟩
  · by_cases hc : s.tgtPos ≤ s.curPos
    · exact .inr (.inl ⟨rfl, hc, by simp [hc]⟩)
    · exact .inr (.inr (.inl ⟨rfl, hc, by simp [hc]⟩))
  · by_cases hc : s.curPos ≤ s.tgtPos
    · exact .inr (.inr (.inr (.inl ⟨rfl, hc, by simp [hc]⟩)))
    · exact .inr (.inr (.inr (.inr ⟨rfl, hc, by simp [hc]⟩)))

end Sys2Proof.Machine
end

