-- ==== Sys2Proof/Laws/PerInstr.lean ====
section
/-! SUPPORT. One law for each instruction: its encoding has the width and the space that its row of spec/opcode_table.json
gives. -/

namespace Sys2Proof.Laws.EncodedWidth

/-- "width" of each row of the table. -/
def rowWidth : Instr → Nat
  | .deskRx _ => 20
  | .remRx _ => 20
  | .cycle => 20
  | .moveTo _ => 20
  | .stop => 20
  | .preset1 => 20
  | .preset2 => 20
  | .preset3 => 20
  | .simBtn _ => 20
  | .reservedOp0 _ => 20
  | .reservedOpA _ => 20
  | .reservedOpB _ => 20
  | .reservedOpC _ => 20
  | .reservedOpD _ => 20
  | .reservedOpE _ => 20
  | .reservedOpF _ => 20
  | .illegalNonzeroMbz _ _ => 20
  | .deskStatus6 _ _ _ _ _ => 48
  | .deskStatus5 _ _ _ _ => 40
  | .remoteKeys _ _ _ _ => 40
  | .cmdDriveUp => 40
  | .cmdDriveDown => 40
  | .cmdPreset1 => 40
  | .cmdPreset2 => 40
  | .cmdPreset3 => 40
  | .cmdButton _ => 40

/-- The bits of an encoding: 20 for an event word, 8 for each byte of a bus frame. -/
def offerWidth : Offer → Nat
  | .event _ => 20
  | .deskFrame bs => 8 * bs.length
  | .remoteFrame bs => 8 * bs.length
  | .commandFrame bs => 8 * bs.length

/-- The encoding is an event word exactly for the event rows, and is as wide as the table says. -/
def Statement (i : Instr) : Prop :=
  offerWidth (encode i) = rowWidth i ∧ (i.isEvent = true ↔ ∃ w, encode i = .event w)

theorem deskRx (b : Byte) : Statement (.deskRx b) := ⟨rfl, fun _ => ⟨_, rfl⟩, fun _ => rfl⟩

theorem remRx (b : Byte) : Statement (.remRx b) := ⟨rfl, fun _ => ⟨_, rfl⟩, fun _ => rfl⟩

theorem cycle : Statement .cycle := ⟨rfl, fun _ => ⟨_, rfl⟩, fun _ => rfl⟩

theorem moveTo (t : Tenths) : Statement (.moveTo t) := ⟨rfl, fun _ => ⟨_, rfl⟩, fun _ => rfl⟩

theorem stop : Statement .stop := ⟨rfl, fun _ => ⟨_, rfl⟩, fun _ => rfl⟩

theorem preset1 : Statement .preset1 := ⟨rfl, fun _ => ⟨_, rfl⟩, fun _ => rfl⟩

theorem preset2 : Statement .preset2 := ⟨rfl, fun _ => ⟨_, rfl⟩, fun _ => rfl⟩

theorem preset3 : Statement .preset3 := ⟨rfl, fun _ => ⟨_, rfl⟩, fun _ => rfl⟩

theorem simBtn (m : Byte) : Statement (.simBtn m) := ⟨rfl, fun _ => ⟨_, rfl⟩, fun _ => rfl⟩

theorem reservedOp0 (o : Operand) : Statement (.reservedOp0 o) := ⟨rfl, fun _ => ⟨_, rfl⟩, fun _ => rfl⟩

theorem reservedOpA (o : Operand) : Statement (.reservedOpA o) := ⟨rfl, fun _ => ⟨_, rfl⟩, fun _ => rfl⟩

theorem reservedOpB (o : Operand) : Statement (.reservedOpB o) := ⟨rfl, fun _ => ⟨_, rfl⟩, fun _ => rfl⟩

theorem reservedOpC (o : Operand) : Statement (.reservedOpC o) := ⟨rfl, fun _ => ⟨_, rfl⟩, fun _ => rfl⟩

theorem reservedOpD (o : Operand) : Statement (.reservedOpD o) := ⟨rfl, fun _ => ⟨_, rfl⟩, fun _ => rfl⟩

theorem reservedOpE (o : Operand) : Statement (.reservedOpE o) := ⟨rfl, fun _ => ⟨_, rfl⟩, fun _ => rfl⟩

theorem reservedOpF (o : Operand) : Statement (.reservedOpF o) := ⟨rfl, fun _ => ⟨_, rfl⟩, fun _ => rfl⟩

theorem illegalNonzeroMbz (op : BitVec 4) (opnd : Operand) : Statement (.illegalNonzeroMbz op opnd) := ⟨rfl, fun _ => ⟨_, rfl⟩, fun _ => rfl⟩

theorem deskStatus6 (h t u y c : Byte) : Statement (.deskStatus6 h t u y c) := ⟨rfl, nofun, nofun⟩

theorem deskStatus5 (h t u c : Byte) : Statement (.deskStatus5 h t u c) := ⟨rfl, nofun, nofun⟩

theorem remoteKeys (r m x c : Byte) : Statement (.remoteKeys r m x c) := ⟨rfl, nofun, nofun⟩

theorem cmdDriveUp : Statement .cmdDriveUp := ⟨rfl, nofun, nofun⟩

theorem cmdDriveDown : Statement .cmdDriveDown := ⟨rfl, nofun, nofun⟩

theorem cmdPreset1 : Statement .cmdPreset1 := ⟨rfl, nofun, nofun⟩

theorem cmdPreset2 : Statement .cmdPreset2 := ⟨rfl, nofun, nofun⟩

theorem cmdPreset3 : Statement .cmdPreset3 := ⟨rfl, nofun, nofun⟩

theorem cmdButton (p : Byte) : Statement (.cmdButton p) := ⟨rfl, nofun, nofun⟩

end Sys2Proof.Laws.EncodedWidth
end

