-- ==== Sys2Proof/Laws/Step.lean ====
section
/-! SUPPORT. Everything one step can do, and how a run of events and a run of the core unroll. -/

namespace Sys2Proof.Machine

@[simp] theorem runEvents_nil (s : State) : runEvents [] s = .next s := rfl

@[simp] theorem runEvents_cons (i : Instr) (is : List Instr) (s : State) :
    runEvents (i :: is) s = andThen (exec i (takeAll s)) (runEvents is) := rfl

/-- A run of any core unrolls by its first step. -/
theorem core_run_succ (M : Host.Core) (k : Nat) (s t : M.State) (h : M.step s = .next t) :
    M.run (k + 1) s = M.run k t := by
  rw [Host.Core.run, h]

/-- The same for this core, in its own types. -/
theorem run_of_step {k : Nat} {s t : State} (h : step s = .next t) :
    Sys2Proof.core.run (k + 1) s = Sys2Proof.core.run k t :=
  core_run_succ Sys2Proof.core k s t h

/-- An offer the core takes is decoded, and the decoded instruction runs. -/
theorem runOffer_next {o : Offer} {s t : State} (h : runOffer o s = .next t) :
    ∃ i, decode o = .ok i ∧ exec i s = .next t := by
  unfold runOffer at h
  split at h
  · exact ⟨_, by assumption, h⟩
  · cases h

theorem takeOutput_nil {s : State} (h : s.out = []) : takeOutput s = s := by
  simp [takeOutput, h]

theorem takeOutput_cons {s : State} {e : OutEvent} {es : List OutEvent} (h : s.out = e :: es) :
    takeOutput s = { s with out := es, taken := s.taken ++ [e] } := by
  simp [takeOutput, h]

/-- Everything a step can do when it answers a next state: nothing (no input); the next input is used up with no effect; a
reset edge; an output event is taken, by an edge or by a waiting transaction; an offered word or frame runs. -/
theorem step_cases {s t : State} (h : step s = .next t) :
    (s.host = [] ∧ t = s) ∨
    (∃ p rest, s.host = .edge p :: rest ∧ p.rst = false ∧ t = { s with host := rest }) ∨
    (∃ p rest n, s.host = .edge p :: rest ∧ p.rst = true ∧ msgLenOfBits p.cfgMsgLen = some n ∧
      t = State.resetWith ⟨n, p.cfgDeskPresent, p.cfgRemotePresent, s.cfg.segTable⟩ s.taken rest) ∨
    (∃ p rest e es, s.host = .edge p :: rest ∧ p.rst = false ∧ s.out = e :: es ∧
      t = { s with out := es, taken := s.taken ++ [e], host := rest }) ∨
    (∃ o rest e es, s.host = .offer o :: rest ∧ s.out = e :: es ∧
      t = { s with out := es, taken := s.taken ++ [e] }) ∨
    (∃ x rest o i, s.host = x :: rest ∧ x.isReset = false ∧ s.out = [] ∧ decode o = .ok i ∧
      exec i { s with host := rest } = .next t) := by
  unfold step at h
  split at h
  · cases h; exact .inl ⟨by assumption, rfl⟩
  · rename_i p rest hh
    unfold clockEdge at h
    split at h
    · rename_i hr
      unfold resetEdge at h
      split at h
      · cases h; exact .inr (.inr (.inl ⟨p, rest, _, hh, hr, by assumption, rfl⟩))
      · cases h
    · rename_i hr
      have hr : p.rst = false := by simpa using hr
      split at h
      · rename_i he
        split at h
        · obtain ⟨i, hi, hx⟩ := runOffer_next h
          exact .inr (.inr (.inr (.inr (.inr
            ⟨.edge p, rest, _, i, hh, hr, by simpa [evtReady] using he, hi, hx⟩))))
        · cases h; exact .inr (.inl ⟨p, rest, hh, hr, rfl⟩)
      · rename_i he
        split at h
        · cases h
          cases ho : s.out with
          | nil => exact absurd (by simp [evtReady, ho]) he
          | cons e es =>
            exact .inr (.inr (.inr (.inl ⟨p, rest, e, es, hh, hr, rfl, by simp [takeOutput]⟩)))
        · cases h; exact .inr (.inl ⟨p, rest, hh, hr, rfl⟩)
  · rename_i o rest hh
    split at h
    · rename_i he
      obtain ⟨i, hi, hx⟩ := runOffer_next h
      exact .inr (.inr (.inr (.inr (.inr
        ⟨.offer o, rest, o, i, hh, rfl, by simpa [evtReady] using he, hi, hx⟩))))
    · rename_i he
      cases h
      cases ho : s.out with
      | nil => exact absurd (by simp [evtReady, ho]) he
      | cons e es =>
        exact .inr (.inr (.inr (.inr (.inl ⟨o, rest, e, es, hh, rfl, by simp [takeOutput, ho]⟩))))

end Sys2Proof.Machine
end

