-- ==== Sys2Proof/Tests/Slice0.lean ====
section
/-! SUPPORT. The model's own tests: well-formedness, decoding of written-out words, one step for each instruction, and for every
statement with hypotheses one concrete state that meets them. Expected values are from spec/95_test_vectors.md (DV, RV, CV, MV,
L1, L2.6), or worked by hand from the rule named. -/

namespace Sys2Proof.Machine.Tests

open Sys2Proof Sys2Proof.Machine

/-! ## Helpers -/

/-- One view of the state a result answers. -/
def view {α : Type} (f : State → α) : Result → Option α
  | .next s => some (f s)
  | .fault _ => none
  | .refused _ => none

/-- After reset, both transports, the given length. -/
def start (n : MsgLen) : State := State.resetWith { defaultCfg with msgLen := n } [] []

/-- A desk scanner in mid-frame. -/
def deskAt (n : MsgLen) (count : BitVec 3) (buf : Vector Byte 5) : State :=
  { start n with dphase := .accumulating, dcnt := count, dbuf := buf }

/-- A remote scanner in mid-frame. -/
def remAt (count : BitVec 2) (buf : Vector Byte 3) : State :=
  { start .six with rphase := .accumulating, rcnt := count, rbuf := buf }

/-- A state in movement. -/
def moving (m : MvState) (cur tgt : Tenths) : State :=
  { start .six with mvState := m, curPos := cur, posKnown := true, tgtPos := tgt }

/-- The five bytes of a command frame as output events. -/
def sent (a b c d e : Byte) : List OutEvent := [.tx a, .tx b, .tx c, .tx d, .tx e]

/-- Without the desk. -/
def noDesk : State := State.resetWith { defaultCfg with deskPresent := false } [] []

/-- Without the remote. -/
def noRemote : State := State.resetWith { defaultCfg with remotePresent := false } [] []

/-! ## Well-formedness: a term that stands for no encoding of its row is refused -/

theorem test_wf_mbz_zero_refused : (Instr.illegalNonzeroMbz 0x1 0x005A).wf = false := by decide
theorem test_wf_mbz_zero_N_refused : (Instr.illegalNonzeroMbz 0x3 0x0000).wf = false := by decide
theorem test_wf_mbz_format_T_refused : (Instr.illegalNonzeroMbz 0x4 0xFFFF).wf = false := by decide
theorem test_wf_mbz_reserved_refused : (Instr.illegalNonzeroMbz 0xA 0x0001).wf = false := by decide
theorem test_wf_mbz_accepted : (Instr.illegalNonzeroMbz 0x9 0x0100).wf = true := by decide
theorem test_wf_button_up_refused : (Instr.cmdButton 0x20).wf = false := by decide
theorem test_wf_button_down_refused : (Instr.cmdButton 0x40).wf = false := by decide
theorem test_wf_button_m1_refused : (Instr.cmdButton 0x02).wf = false := by decide
theorem test_wf_button_m2_refused : (Instr.cmdButton 0x04).wf = false := by decide
theorem test_wf_button_m3_refused : (Instr.cmdButton 0x08).wf = false := by decide
theorem test_wf_button_accepted : (Instr.cmdButton 0x06).wf = true := by decide

/-! ## Decoding: one word for each row, written out from R72 and from the table's encodings -/

theorem test_decode_deskRx : decodeTableWord 24 0b0001_00000000_01011010 = some (.deskRx 0x5A) := by decide
theorem test_decode_remRx : decodeTableWord 24 0b0010_00000000_10100101 = some (.remRx 0xA5) := by decide
theorem test_decode_cycle : decodeTableWord 24 0b0011_0000000000000000 = some .cycle := by decide
theorem test_decode_moveTo : decodeTableWord 24 0b0100_0000001100100000 = some (.moveTo 800) := by decide
theorem test_decode_stop : decodeTableWord 24 0b0101_0000000000000000 = some .stop := by decide
theorem test_decode_preset1 : decodeTableWord 24 0b0110_0000000000000000 = some .preset1 := by decide
theorem test_decode_preset2 : decodeTableWord 24 0b0111_0000000000000000 = some .preset2 := by decide
theorem test_decode_preset3 : decodeTableWord 24 0b1000_0000000000000000 = some .preset3 := by decide
theorem test_decode_simBtn : decodeTableWord 24 0b1001_00000000_00000110 = some (.simBtn 0x06) := by decide
theorem test_decode_reservedOp0 : decodeTableWord 24 0b0000_0000000000000001 = some (.reservedOp0 1) := by decide
theorem test_decode_reservedOpA : decodeTableWord 24 0b1010_0000000000000000 = some (.reservedOpA 0) := by decide
theorem test_decode_reservedOpB : decodeTableWord 24 0b1011_0000000000000000 = some (.reservedOpB 0) := by decide
theorem test_decode_reservedOpC : decodeTableWord 24 0b1100_0000000000000000 = some (.reservedOpC 0) := by decide
theorem test_decode_reservedOpD : decodeTableWord 24 0b1101_0000000000000000 = some (.reservedOpD 0) := by decide
theorem test_decode_reservedOpE : decodeTableWord 24 0b1110_0000000000000000 = some (.reservedOpE 0) := by decide
theorem test_decode_reservedOpF : decodeTableWord 24 0b1111_1111111111111111 = some (.reservedOpF 0xFFFF) := by decide
theorem test_decode_mbz_B : decodeTableWord 24 0b0001_00000001_01011010 = some (.illegalNonzeroMbz 0x1 0x015A) := by decide
theorem test_decode_mbz_N : decodeTableWord 24 0b0101_0000000100000000 = some (.illegalNonzeroMbz 0x5 0x0100) := by decide
theorem test_decode_deskStatus6 :
    decodeTableWord 48 0b01011010_00000111_11011011_01101101_00000001_01010000 =
      some (.deskStatus6 0x07 0xDB 0x6D 0x01 0x50) := by decide
theorem test_decode_deskStatus5 :
    decodeTableWord 40 0b01011010_00000111_11011011_01101101_01001111 =
      some (.deskStatus5 0x07 0xDB 0x6D 0x4F) := by decide
theorem test_decode_remoteKeys :
    decodeTableWord 40 0b10100101_00010000_10010001_00000101_10100110 =
      some (.remoteKeys 0x10 0x91 0x05 0xA6) := by decide
theorem test_decode_cmdDriveUp :
    decodeTableWord 40 0b10100101_00000000_00100000_11011111_11111111 = some .cmdDriveUp := by decide
theorem test_decode_cmdDriveDown :
    decodeTableWord 40 0b10100101_00000000_01000000_10111111_11111111 = some .cmdDriveDown := by decide
theorem test_decode_cmdPreset1 :
    decodeTableWord 40 0b10100101_00000000_00000010_11111101_11111111 = some .cmdPreset1 := by decide
theorem test_decode_cmdPreset2 :
    decodeTableWord 40 0b10100101_00000000_00000100_11111011_11111111 = some .cmdPreset2 := by decide
theorem test_decode_cmdPreset3 :
    decodeTableWord 40 0b10100101_00000000_00001000_11110111_11111111 = some .cmdPreset3 := by decide
theorem test_decode_cmdButton :
    decodeTableWord 40 0b10100101_00000000_00000110_11111001_11111111 = some (.cmdButton 0x06) := by decide
theorem test_decode_no_frame : decodeTableWord 40 0x0007DB6D4F = none := by decide

/-! ## One step for each instruction -/

/-- DV1, the sixth byte. -/
theorem test_deskRx_publishes :
    view (fun s => (s.out, s.curPos, s.posKnown, s.dphase, s.dcnt))
      (exec (.deskRx 0x50) (deskAt .six 4 #v[0x07, 0xDB, 0x6D, 0x01, 0x00])) =
    some ([.heightPub 725], 725, true, .searching, 0) := by decide

/-- DV15, the sixth byte: no digit. -/
theorem test_deskRx_invalid_digit :
    view (fun s => (s.out, s.curPos, s.posKnown, s.dphase))
      (exec (.deskRx 0xFB) (deskAt .six 4 #v[0x7C, 0x3F, 0x3F, 0x01, 0x00])) =
    some ([], 0, false, .searching) := by decide

/-- RV1, the fifth byte: bridge, publication, echo, in this order. -/
theorem test_remRx_outputs :
    view (fun s => (s.out, s.btnUp, s.btnDown, s.rphase)) (exec (.remRx 0x20) (remAt 3 #v[0x00, 0x20, 0x00])) =
    some (.tx 0x20 :: .buttonPub true false false false false :: sent 0xA5 0x00 0x20 0xDF 0xFF,
      true, false, .searching) := by decide

/-- RV10, the fifth byte: the checksum wraps. -/
theorem test_remRx_checksum_wraps :
    view (·.btnUp) (exec (.remRx 0x00) (remAt 3 #v[0xFF, 0x20, 0xE1])) = some true := by decide

/-- MV4: overshoot ends the move. -/
theorem test_cycle_overshoot :
    view (fun s => (s.out, s.mvState)) (exec .cycle (moving .raising 725 700)) = some ([], .idle) := by decide

/-- MV3: down drive. -/
theorem test_cycle_down :
    view (fun s => (s.out, s.mvState)) (exec .cycle (moving .lowering 725 500)) =
    some (sent 0xA5 0x00 0x40 0xBF 0xFF, .lowering) := by decide

/-- MV10: a target equal to the reading gives LOWERING. -/
theorem test_moveTo_equal :
    view (fun s => (s.mvState, s.tgtPos)) (exec (.moveTo 725) (moving .idle 725 0)) = some (.lowering, 725) := by decide

/-- MV7: the comparison is unsigned. -/
theorem test_moveTo_unsigned :
    view (·.mvState) (exec (.moveTo 0xFFFF) (moving .idle 725 0)) = some .raising := by decide

/-- L1.6: the target is kept and nothing is sent. -/
theorem test_stop_keeps_target :
    view (fun s => (s.mvState, s.tgtPos, s.out)) (exec .stop (moving .raising 500 800)) = some (.idle, 800, []) := by
  decide

/-- CV1. -/
theorem test_preset1 : view (·.out) (exec .preset1 (start .six)) = some (sent 0xA5 0x00 0x02 0xFD 0xFF) := by decide
theorem test_preset2 : view (·.out) (exec .preset2 (start .six)) = some (sent 0xA5 0x00 0x04 0xFB 0xFF) := by decide
theorem test_preset3 : view (·.out) (exec .preset3 (start .six)) = some (sent 0xA5 0x00 0x08 0xF7 0xFF) := by decide
theorem test_simBtn_start_byte :
    view (fun s => (s.out, s.mvState)) (exec (.simBtn 0xA5) (start .six)) =
    some (sent 0xA5 0x00 0xA5 0x5A 0xFF, .idle) := by decide

/-- CV2. -/
theorem test_simBtn_no_desk : view (·.out) (exec (.simBtn 0x20) noDesk) = some [] := by decide

/-- L2.6. -/
theorem test_reservedOp0 :
    view (fun s => (s.out, s.ill)) (exec (.reservedOp0 0) (start .six)) = some ([.diag 3], true) := by decide
theorem test_reservedOpA :
    view (fun s => (s.out, s.ill)) (exec (.reservedOpA 0) (start .six)) = some ([.diag 3], true) := by decide
theorem test_reservedOpB :
    view (fun s => (s.out, s.ill)) (exec (.reservedOpB 0) (start .six)) = some ([.diag 3], true) := by decide
theorem test_reservedOpC :
    view (fun s => (s.out, s.ill)) (exec (.reservedOpC 0) (start .six)) = some ([.diag 3], true) := by decide
theorem test_reservedOpD :
    view (fun s => (s.out, s.ill)) (exec (.reservedOpD 0) (start .six)) = some ([.diag 3], true) := by decide
theorem test_reservedOpE :
    view (fun s => (s.out, s.ill)) (exec (.reservedOpE 0) (start .six)) = some ([.diag 3], true) := by decide
theorem test_reservedOpF :
    view (fun s => (s.out, s.ill)) (exec (.reservedOpF 0xFFFF) (start .six)) = some ([.diag 3], true) := by decide
theorem test_illegalNonzeroMbz_not_scanned :
    view (fun s => (s.out, s.ill, s.dphase)) (exec (.illegalNonzeroMbz 0x1 0x015A) (start .six)) =
    some ([.diag 3], true, .searching) := by decide
theorem test_illegalNonzeroMbz_no_stop :
    view (·.mvState) (exec (.illegalNonzeroMbz 0x5 0x0100) (moving .raising 0 800)) = some .raising := by decide

/-- DV10: bit 7 of the hundreds and units bytes is ignored. -/
theorem test_deskStatus6_points :
    view (·.out) (exec (.deskStatus6 0x87 0xDB 0xED 0x01 0x50) (start .six)) = some [.heightPub 725] := by decide

/-- DV3: another type byte. -/
theorem test_deskStatus6_type :
    view (fun s => (s.out, s.posKnown)) (exec (.deskStatus6 0x07 0xDB 0x6D 0x02 0x51) (start .six)) =
    some ([], false) := by decide

/-- P5, line 1: no decimal point. -/
theorem test_deskStatus5_no_point :
    view (·.out) (exec (.deskStatus5 0x06 0x4F 0x66 0xBB) (start .five)) = some [.heightPub 1340] := by decide

/-- P5, line 2: a blank display keeps the reading. -/
theorem test_deskStatus5_blank :
    view (fun s => (s.out, s.curPos))
      (exec (.deskStatus5 0x00 0x00 0x00 0x00) { start .five with curPos := 1340, posKnown := true }) =
    some ([], 1340) := by decide

/-- RV4: unnamed mask bits are echoed and drive no button; byte 0 and byte 2 count in the checksum. The outputs of the first
four bytes are taken before the fifth arrives (R57). -/
theorem test_remoteKeys_unnamed_bits :
    view (fun s => (s.taken, s.out)) (exec (.remoteKeys 0x10 0x91 0x05 0xA6) (start .six)) =
    some ([.tx 0xA5, .tx 0x10, .tx 0x91, .tx 0x05],
      .tx 0xA6 :: .buttonPub false false false false false :: sent 0xA5 0x00 0x91 0x6E 0xFF) := by decide

/-- RV9: no bridge and no echo without the desk. -/
theorem test_remoteKeys_no_desk :
    view (·.out) (exec (.remoteKeys 0x00 0x20 0x00 0x20) noDesk) =
    some [.buttonPub true false false false false] := by decide

/-- L2.2. -/
theorem test_cmdDriveUp : view (·.out) (exec .cmdDriveUp (start .six)) = some (sent 0xA5 0x00 0x20 0xDF 0xFF) := by decide
theorem test_cmdDriveDown :
    view (·.out) (exec .cmdDriveDown (start .six)) = some (sent 0xA5 0x00 0x40 0xBF 0xFF) := by decide
theorem test_cmdPreset1 :
    view (·.out) (exec .cmdPreset1 (start .six)) = some (sent 0xA5 0x00 0x02 0xFD 0xFF) := by decide
theorem test_cmdPreset2 :
    view (·.out) (exec .cmdPreset2 (start .six)) = some (sent 0xA5 0x00 0x04 0xFB 0xFF) := by decide
theorem test_cmdPreset3 :
    view (·.out) (exec .cmdPreset3 (start .six)) = some (sent 0xA5 0x00 0x08 0xF7 0xFF) := by decide
theorem test_cmdButton :
    view (·.out) (exec (.cmdButton 0x91) (start .six)) = some (sent 0xA5 0x00 0x91 0x6E 0xFF) := by decide

/-! ## The step and the parts -/

/-- The default table, digit by digit, with and without bit 7 (L2.1). -/
theorem test_segdec :
    ([0x3F, 0x06, 0x5B, 0x4F, 0x66, 0x6D, 0x7D, 0x07, 0x7F, 0x6F, 0xDB, 0xBF, 0x00, 0x80, 0x7C, 0x67] : List Byte).map
      (segdec defaultSegTable) =
    [some 0, some 1, some 2, some 3, some 4, some 5, some 6, some 7, some 8, some 9, some 2, some 0, none, none, none,
      none] := by decide

/-- A placed word is the first instruction after reset. -/
theorem test_withFetchWord_step :
    view (fun s => (s.out, s.host)) (step (State.reset.withFetchWord 24 0x90006)) =
    some (sent 0xA5 0x00 0x06 0xF9 0xFF, []) := by decide

/-- What is pending is taken before a placed word runs, so that it runs at once (R57). -/
theorem test_withFetchWord_pending :
    view (fun s => (s.out, s.taken)) (step ({ start .six with out := [.diag 1] }.withFetchWord 24 0x00000)) =
    some ([.diag 3], [.diag 1]) := by decide

/-- The 20-bit width of the table itself is read too. -/
theorem test_decode_20_bits : decodeTableWord 20 0x40320 = some (.moveTo 800) := by decide

/-- R38: a reset edge with `cfg_msg_len` 7 is refused. -/
theorem test_reset_bad_length :
    view (·.dcnt) (step { start .six with host := [.edge (resetPins 7 true true)] }) = none := by decide

/-- The button word of R34: bit 0 is up, bit 3 is m2. -/
theorem test_outPort_buttons :
    outPort { start .six with out := [.buttonPub true false false true false] } = some (2, 0b01001) := by decide

/-! ## A concrete case for the hypotheses of each statement -/

/-- A state between steps in the middle of both frames, moving, with a reading. -/
def midway : State :=
  { start .six with
    dphase := .accumulating, dcnt := 4, dbuf := #v[0x07, 0xDB, 0x6D, 0x01, 0x00],
    rphase := .accumulating, rcnt := 3, rbuf := #v[0x00, 0x20, 0x00],
    mvState := .raising, tgtPos := 800, curPos := 500, posKnown := true, btnUp := true, ill := true,
    host := [.offer (.event 0x10050)] }

/-- It meets the invariant. -/
theorem midway_inv : CoreInv midway where
  deskEmpty := by decide
  deskRoom := by decide
  deskDead := by decide
  remEmpty := by decide
  remDead := by decide
  curRange := by decide
  curUnknown := by decide
  deskAbsent := by decide
  remoteAbsent := by decide
  table := by decide
  outLegal := fun _ h => absurd h List.not_mem_nil

/-- DV1's bytes are a valid frame with reading 725, and DV13's one of length 5. -/
theorem valid_six : ValidDeskFrame .six defaultSegTable #v[0x07, 0xDB, 0x6D, 0x01, 0x00] 0x50 725 where
  sum := by show (_ : Nat) = _; decide
  type := by decide
  lit := by decide
  digits := ⟨7, 2, 5, by decide, by decide, by decide, by decide⟩

theorem valid_five : ValidDeskFrame .five defaultSegTable #v[0x07, 0xDB, 0x6D, 0x00, 0x00] 0x4F 725 where
  sum := by show (_ : Nat) = _; decide
  type := by decide
  lit := by decide
  digits := ⟨7, 2, 5, by decide, by decide, by decide, by decide⟩

/-- DV3's bytes, type 0x02, and a blank length-5 frame (P5, line 2) are checksum-correct and not valid. -/
theorem not_valid_six : ∀ h, ¬ValidDeskFrame .six defaultSegTable #v[0x07, 0xDB, 0x6D, 0x02, 0x00] 0x51 h :=
  fun _ v => absurd (v.type rfl) (by decide)

theorem not_valid_five : ∀ h, ¬ValidDeskFrame .five defaultSegTable #v[0x00, 0x00, 0x00, 0x00, 0x00] 0x00 h :=
  fun _ v => v.lit (by decide)

theorem sum_six : sumsTo [0x07, 0xDB, 0x6D, 0x02] 0x51 := by show (_ : Nat) = _; decide
theorem sum_five : sumsTo [0x00, 0x00, 0x00] 0x00 := by show (_ : Nat) = _; decide
theorem no_sum_six : ¬sumsTo [0x07, 0xDB, 0x6D, 0x01] 0x51 := by show ¬(_ : Nat) = _; decide
theorem no_sum_five : ¬sumsTo [0x07, 0xDB, 0x6D] 0x01 := by show ¬(_ : Nat) = _; decide

theorem witness_DecodeOfEncodeIsIdentity :
    (Instr.moveTo 0xFFFF).wf = true ∧ (Instr.illegalNonzeroMbz 0x3 0x0001).wf = true ∧ (Instr.cmdButton 0xFF).wf = true ∧
    (Instr.deskStatus6 0 0 0 0 0).wf = true := by decide

theorem witness_EncodeOfDecodeIsIdentity :
    decode (.event 0x30001) = .ok (.illegalNonzeroMbz 0x3 0x0001) ∧
    decode (.commandFrame [0xA5, 0x00, 0x06, 0xF9, 0xFF]) = .ok (.cmdButton 0x06) := ⟨rfl, rfl⟩

theorem witness_StepRunsTheOfferedInstruction :
    decode (.event 0x1005A) = .ok (.deskRx 0x5A) ∧ (Instr.deskRx 0x5A).wf = true ∧
    ({ start .six with host := [.offer (.event 0x1005A)] } : State).out = [] ∧
    ({ start .six with host := [.offer (.event 0x1005A)], out := [.diag 1] } : State).out = .diag 1 :: [] :=
  ⟨rfl, rfl, rfl, rfl⟩

theorem witness_ClockEdgeRunsTheOfferedWord :
    idlePins.rst = false ∧ (eventPins 0x30000).evtValid = true ∧ (eventPins 0x30000).rst = false ∧
    decode (.event (eventPins 0x30000).evtWord) = .ok .cycle ∧ readyPins.outReady = true ∧ readyPins.rst = false ∧
    idlePins.evtValid = false ∧ idlePins.outReady = false ∧ (start .six).out = [] ∧
    ({ start .six with out := [.diag 1] } : State).out ≠ [] := by
  refine ⟨rfl, rfl, rfl, rfl, rfl, rfl, rfl, rfl, rfl, by decide⟩

theorem witness_WithoutInputTheStateHolds : (start .five).host = [] := rfl

theorem witness_ResetEdgeSetsEveryElement :
    (resetPins 5 true false).rst = true ∧ (resetPins 5 true false).cfgMsgLen = 5 ∧ (resetPins 6 true true).cfgMsgLen = 6 := by decide

theorem witness_BadMessageLengthIsRefused :
    (resetPins 4 true true).rst = true ∧ (resetPins 4 true true).cfgMsgLen ≠ 5 ∧ (resetPins 4 true true).cfgMsgLen ≠ 6 ∧
    (resetPins 7 true true).cfgMsgLen ≠ 5 ∧ (resetPins 7 true true).cfgMsgLen ≠ 6 := by decide

theorem witness_OnlyResetClearsFlagsOrChangesConfig :
    (∃ t, step midway = .next t) ∧ (∀ x rest, midway.host = x :: rest → x.isReset = false) ∧
    midway.posKnown = true ∧ midway.ill = true :=
  ⟨⟨_, rfl⟩, fun _ _ h => by cases h; rfl, rfl, rfl⟩

theorem witness_SearchingDeskScannerTakesOnlyStartByte :
    (start .six).cfg.deskPresent = true ∧ (start .six).dphase = .searching := ⟨rfl, rfl⟩

theorem witness_AccumulatingDeskScannerStoresEveryByte :
    (deskAt .six 3 #v[0x07, 0x5A, 0x07, 0, 0]).cfg.deskPresent = true ∧
    (deskAt .six 3 #v[0x07, 0x5A, 0x07, 0, 0]).dphase = .accumulating ∧
    (deskAt .six 3 #v[0x07, 0x5A, 0x07, 0, 0]).dcnt.toNat + 1 < msgLenNat .six - 1 ∧
    (deskAt .five 2 #v[0x07, 0x5A, 0, 0, 0]).dcnt.toNat + 1 < msgLenNat .five - 1 ∧
    (deskAt .five 0 #v[0, 0, 0, 0, 0]).dcnt.toNat + 1 < msgLenNat .five - 1 := by decide

/-- Each of the four clauses at length 6 and at length 5. -/
theorem witness_CompleteDeskFrameOutcomes :
    (let s := deskAt .six 4 #v[0x07, 0xDB, 0x6D, 0x01, 0x00];
      s.cfg.deskPresent = true ∧ s.dphase = .accumulating ∧ s.dcnt.toNat + 1 = msgLenNat s.cfg.msgLen - 1 ∧
      s.cfg.segTable.legal = true ∧ ¬sumsTo [s.dbuf[0], s.dbuf[1], s.dbuf[2], s.dbuf[3]] 0x51 ∧
      ValidDeskFrame .six s.cfg.segTable s.dbuf 0x50 725 ∧ s.posKnown = false) ∧
    (let s : State := { deskAt .six 4 #v[0x07, 0xDB, 0x6D, 0x01, 0x00] with curPos := 725, posKnown := true };
      ValidDeskFrame .six s.cfg.segTable s.dbuf 0x50 725 ∧ s.posKnown = true ∧ 725 = s.curPos) ∧
    (let s := deskAt .six 4 #v[0x07, 0xDB, 0x6D, 0x02, 0x00];
      sumsTo [s.dbuf[0], s.dbuf[1], s.dbuf[2], s.dbuf[3]] 0x51 ∧
      ∀ h, ¬ValidDeskFrame .six s.cfg.segTable s.dbuf 0x51 h) ∧
    (let s := deskAt .five 3 #v[0x07, 0xDB, 0x6D, 0x00, 0x00];
      s.dcnt.toNat + 1 = msgLenNat s.cfg.msgLen - 1 ∧ ¬sumsTo [s.dbuf[0], s.dbuf[1], s.dbuf[2]] 0x01 ∧
      ValidDeskFrame .five s.cfg.segTable s.dbuf 0x4F 725) ∧
    (let s := deskAt .five 3 #v[0x00, 0x00, 0x00, 0x00, 0x00];
      sumsTo [s.dbuf[0], s.dbuf[1], s.dbuf[2]] 0x00 ∧ ∀ h, ¬ValidDeskFrame .five s.cfg.segTable s.dbuf 0x00 h) :=
  ⟨⟨rfl, rfl, rfl, by decide, no_sum_six, valid_six, rfl⟩, ⟨valid_six, rfl, rfl⟩, ⟨sum_six, not_valid_six⟩,
    ⟨rfl, no_sum_five, valid_five⟩, sum_five, not_valid_five⟩

theorem witness_DeskFrameOfLengthSix :
    (start .six).cfg.deskPresent = true ∧ (start .six).cfg.msgLen = .six ∧ (start .six).dphase = .searching ∧
    (start .six).cfg.segTable.legal = true ∧ ¬sumsTo [0x07, 0xDB, 0x6D, 0x01] 0x51 ∧
    ValidDeskFrame .six (start .six).cfg.segTable #v[0x07, 0xDB, 0x6D, 0x01, 0] 0x50 725 ∧
    sumsTo [0x07, 0xDB, 0x6D, 0x02] 0x51 ∧
    ∀ r, ¬ValidDeskFrame .six (start .six).cfg.segTable #v[0x07, 0xDB, 0x6D, 0x02, 0] 0x51 r :=
  ⟨rfl, rfl, rfl, by decide, no_sum_six, valid_six, sum_six, not_valid_six⟩

theorem witness_DeskFrameOfLengthFive :
    (start .five).cfg.deskPresent = true ∧ (start .five).cfg.msgLen = .five ∧ (start .five).dphase = .searching ∧
    (start .five).cfg.segTable.legal = true ∧ ¬sumsTo [0x07, 0xDB, 0x6D] 0x01 ∧
    ValidDeskFrame .five (start .five).cfg.segTable #v[0x07, 0xDB, 0x6D, 0, 0] 0x4F 725 ∧
    sumsTo [0x00, 0x00, 0x00] 0x00 ∧
    ∀ r, ¬ValidDeskFrame .five (start .five).cfg.segTable #v[0x00, 0x00, 0x00, 0, 0] 0x00 r :=
  ⟨rfl, rfl, rfl, by decide, no_sum_five, valid_five, sum_five, not_valid_five⟩

/-- DV14 for the mismatch; type bytes 0x4F and 0x00 for the two others. -/
theorem witness_DeskFrameOfTheOtherLength :
    (start .six).cfg.msgLen = .six ∧ (start .six).dphase = .searching ∧ (start .five).cfg.msgLen = .five ∧
    (start .five).dphase = .searching ∧ (start .five).cfg.deskPresent = true ∧ ¬sumsTo [0x07, 0xDB, 0x6D] 0x01 ∧
    (start .five).cfg.segTable.legal = true ∧
    ValidDeskFrame .five (start .five).cfg.segTable #v[0x07, 0xDB, 0x6D, 0, 0] 0x4F 725 ∧
    sumsTo [0x00, 0x00, 0x00] 0x00 ∧
    ∀ r, ¬ValidDeskFrame .five (start .five).cfg.segTable #v[0x00, 0x00, 0x00, 0, 0] 0x00 r :=
  ⟨rfl, rfl, rfl, rfl, rfl, no_sum_five, by decide, valid_five, sum_five, not_valid_five⟩

theorem witness_ReceivedFramesCompleteFromEveryState : CoreInv midway := midway_inv

/-- Three events, of which the first emits seven outputs (RV1). -/
theorem witness_EventSequencesRunThroughTheChannel :
    (∀ i ∈ [Instr.remRx 0x20, .cycle, .preset1], i.wf = true) ∧
    ∃ t, runEvents [.remRx 0x20, .cycle, .preset1] (remAt 3 #v[0x00, 0x20, 0x00]) = .next t ∧ t.taken.length = 7 :=
  ⟨by decide, _, rfl, rfl⟩

theorem witness_DeskWindowIsTakenWhateverItHolds :
    (start .six).cfg.deskPresent = true ∧ (start .six).dphase = .searching ∧
    ([0x5A, 0x5A, 0x5A, 0x5A] : List Byte).length < msgLenNat (start .six).cfg.msgLen - 1 ∧
    ([] : List Byte).length < msgLenNat (start .five).cfg.msgLen - 1 ∧
    ([0x07, 0x5A, 0x07, 0xDB, 0x6D] : List Byte).length = msgLenNat (start .six).cfg.msgLen - 1 ∧
    ([0x07, 0x5A, 0x07, 0xDB] : List Byte).length = msgLenNat (start .five).cfg.msgLen - 1 := by decide

theorem witness_HeightPublishedOnlyByValidFrame :
    CoreInv midway ∧ (Instr.deskRx 0x50).isEvent = true ∧
    ∃ t, exec (.deskRx 0x50) midway = .next t ∧ t.out = midway.out ++ [.heightPub 725] ∧
      OutEvent.heightPub 725 ∈ [OutEvent.heightPub 725] :=
  ⟨midway_inv, rfl, _, rfl, rfl, by decide⟩

theorem witness_NoFalsePositivesOverByteStreams :
    defaultCfg.segTable.legal = true ∧
    ∃ t, runEvents (([0x5A, 0x07, 0xDB, 0x6D, 0x01, 0x50] : List Byte).map .deskRx) (State.resetWith defaultCfg [] []) =
      .next t ∧ OutEvent.heightPub 725 ∈ t.taken ++ t.out :=
  ⟨by decide, _, rfl, by decide⟩

theorem witness_PositionWrittenOnlyByAcceptedReading :
    CoreInv midway ∧ (Instr.deskRx 0x50).isEvent = true ∧
    ∃ t, exec (.deskRx 0x50) midway = .next t ∧ t.curPos ≠ midway.curPos :=
  ⟨midway_inv, rfl, _, rfl, by decide⟩

theorem witness_FirstReadingAfterResetIsPublished :
    defaultCfg.segTable.legal = true ∧ defaultCfg.deskPresent = true ∧
    ∃ s, runEvents (([0x5A, 0x07, 0xDB, 0x6D, 0x01] : List Byte).map .deskRx) (State.resetWith defaultCfg [] []) =
      .next s ∧ s.posKnown = false ∧ s.dphase = .accumulating ∧
      s.dcnt.toNat + 1 = msgLenNat defaultCfg.msgLen - 1 ∧
      ValidDeskFrame defaultCfg.msgLen defaultCfg.segTable s.dbuf 0x50 725 :=
  ⟨by decide, rfl, _, rfl, rfl, rfl, rfl, valid_six⟩

theorem witness_DeskvSendsAnAcceptedFrame :
    (start .six).cfg.deskPresent = true ∧ (start .six).dphase = .searching ∧ (start .six).cfg.segTable.legal = true ∧
    ¬((0x07 : Byte) = 0 ∧ (0xDB : Byte) = 0 ∧ (0x6D : Byte) = 0) ∧
    (start .six).cfg.segTable[(7 : Digit)] = (0x07 : Byte).extractLsb' 0 7 ∧
    (start .six).cfg.segTable[(2 : Digit)] = (0xDB : Byte).extractLsb' 0 7 ∧
    (start .six).cfg.segTable[(5 : Digit)] = (0x6D : Byte).extractLsb' 0 7 := by decide

theorem witness_SegdecFindsTheOneDigit : defaultSegTable.legal = true := by decide

/-- A legal table other than the default: 0x7C for 6 and 0x67 for 9 (93 I2). -/
theorem witness_SegdecDecodesTwentyBytes :
    SegTable.legal #v[0x3F, 0x06, 0x5B, 0x4F, 0x66, 0x6D, 0x7C, 0x07, 0x7F, 0x67] = true := by decide

theorem witness_RemoteByteIsBridgedThenScanned :
    (start .six).cfg.remotePresent = true ∧ (start .six).rphase = .searching ∧ (0x20 : Byte) ≠ 0xA5 ∧
    (remAt 2 #v[0x00, 0x20, 0x00]).rphase = .accumulating ∧ (remAt 2 #v[0x00, 0x20, 0x00]).rcnt.toNat < 3 ∧
    (remAt 0 #v[0x00, 0x00, 0x00]).rcnt.toNat < 3 := by decide

/-- RV1 and RV2. -/
theorem witness_CompleteRemoteFrameOutcomes :
    let s := remAt 3 #v[0x00, 0x20, 0x00]
    s.cfg.remotePresent = true ∧ s.rphase = .accumulating ∧ s.rcnt = 3 ∧
    sumsTo [s.rbuf[0], s.rbuf[1], s.rbuf[2]] 0x20 ∧ ¬sumsTo [s.rbuf[0], s.rbuf[1], s.rbuf[2]] 0x21 :=
  ⟨rfl, rfl, rfl, by show (_ : Nat) = _; decide, by show ¬(_ : Nat) = _; decide⟩

theorem witness_RemoteFrameFromSearching :
    (start .six).cfg.remotePresent = true ∧ (start .six).rphase = .searching ∧
    sumsTo [0xFF, 0x20, 0xE1] 0x00 ∧ ¬sumsTo [0x00, 0x20, 0x00] 0x21 :=
  ⟨rfl, rfl, by show (_ : Nat) = _; decide, by show ¬(_ : Nat) = _; decide⟩

theorem witness_BridgeForwardsEveryByteInOrder :
    (moving .raising 0 100).cfg.remotePresent = true ∧ (moving .raising 0 100).cfg.deskPresent = true ∧
    (moving .raising 0 100).mvState ≠ .idle := by decide

theorem witness_BridgedByteIsTheFirstOutput :
    (remAt 3 #v[0x00, 0x20, 0x00]).cfg.remotePresent = true ∧ (remAt 3 #v[0x00, 0x20, 0x00]).cfg.deskPresent = true := by
  decide

theorem witness_CommandFrameReadAsRemoteFrame :
    (start .six).cfg.remotePresent = true ∧ (start .six).cfg.deskPresent = true ∧ (start .six).rphase = .searching := by decide

theorem witness_MoveToSetsTargetAndDirection :
    noDesk.cfg.deskPresent = false ∧ (moving .idle 725 0).cfg.deskPresent = true ∧
    (moving .idle 725 0).curPos.toNat < (726 : Tenths).toNat ∧ (725 : Tenths).toNat ≤ (moving .idle 725 0).curPos.toNat := by
  decide

theorem witness_CycleMovesOrStops :
    (start .six).mvState = .idle ∧
    (moving .raising 725 725).mvState = .raising ∧ (moving .raising 725 725).tgtPos.toNat ≤ 725 ∧
    (moving .lowering 725 725).mvState = .lowering ∧ 725 ≤ (moving .lowering 725 725).tgtPos.toNat ∧
    (moving .raising 724 725).curPos.toNat < (moving .raising 724 725).tgtPos.toNat ∧
    (moving .lowering 726 725).tgtPos.toNat < (moving .lowering 726 725).curPos.toNat := by decide

theorem witness_DirectionIsFixedWithinOneRequest :
    (∃ t, exec .cycle (moving .raising 725 700) = .next t) ∧ (∀ g, Instr.cycle ≠ .moveTo g) ∧
    (∃ t, runEvents [.stop, .cycle] (moving .raising 725 800) = .next t) ∧ ∀ g, Instr.moveTo g ∉ [Instr.stop, .cycle] :=
  ⟨⟨_, rfl⟩, nofun, ⟨_, rfl⟩, fun g => by simp⟩

theorem witness_UnreachedTargetIsDrivenAtEveryCycle :
    (moving .raising 725 65535).mvState = .raising ∧
    (moving .raising 725 65535).curPos.toNat < (moving .raising 725 65535).tgtPos.toNat ∧
    (moving .raising 725 65535).cfg.deskPresent = true := by decide

theorem witness_ControlCycleSendsAtMostOneFrame : CoreInv midway := midway_inv

theorem witness_IllegalWordsSetIllAndReport :
    (∃ op opnd, Instr.illegalNonzeroMbz 0x3 0x0001 = .illegalNonzeroMbz op opnd) ∧
    ((0x00000 : EventWord).extractLsb' 16 4).toNat = 0 ∧ 0xA ≤ ((0xFFFFF : EventWord).extractLsb' 16 4).toNat ∧
    ((0x90100 : EventWord).extractLsb' 16 4).toNat = 0x9 ∧ (0x90100 : EventWord).extractLsb' 8 8 ≠ 0 ∧
    ((0x30001 : EventWord).extractLsb' 16 4).toNat = 0x3 ∧ (0x30001 : EventWord).extractLsb' 0 16 ≠ 0 :=
  ⟨⟨_, _, rfl⟩, by decide⟩

theorem witness_AbsentTransportsAreSilent :
    noDesk.cfg.deskPresent = false ∧ noRemote.cfg.remotePresent = false := by decide

/-- Seven outputs at once (RV1), and a diagnostic (RV2). -/
theorem witness_OneEventEmitsAtMostSevenOutputs :
    (Instr.remRx 0x20).isEvent = true ∧ (∃ t, exec (.remRx 0x20) (remAt 3 #v[0x00, 0x20, 0x00]) = .next t ∧ t.out.length = 7) ∧
    ∃ t, exec (.remRx 0x21) (remAt 3 #v[0x00, 0x20, 0x00]) = .next t ∧ t.out.length = 2 :=
  ⟨rfl, ⟨_, rfl, rfl⟩, _, rfl, rfl⟩

theorem witness_OutputsAreNeverDroppedOrReordered :
    (∃ t, step { midway with out := [.diag 1] } = .next t) ∧
    ∀ x rest, ({ midway with out := [.diag 1] } : State).host = x :: rest → x.isReset = false :=
  ⟨⟨_, rfl⟩, fun _ _ h => by cases h; rfl⟩

theorem witness_EventFinishesWithinEightEdges :
    let s : State := { start .six with host := .edge (eventPins 0x90006) :: (List.replicate 7 (.edge readyPins) ++ []) }
    s.out = [] ∧ decode (.event 0x90006) = .ok (.simBtn 0x06) ∧ ∃ u, exec (.simBtn 0x06) s = .next u :=
  ⟨rfl, rfl, _, rfl⟩

theorem witness_ResetSatisfiesTheInvariant :
    defaultCfg.segTable.legal = true ∧ ∀ e ∈ [OutEvent.heightPub 9990, .diag 3], e.legal :=
  ⟨by decide, by simp [OutEvent.legal]⟩

theorem witness_EveryStepKeepsTheInvariant : CoreInv midway ∧ ∃ t, step midway = .next t := ⟨midway_inv, _, rfl⟩

theorem witness_NothingEverStopsTheCore : CoreInv midway ∧ ∀ x ∈ midway.host, x.legal = true := ⟨midway_inv, by decide⟩

/-- One instruction for all five clauses. -/
theorem witness_EachElementHasItsOwnWriters :
    Instr.preset1.isEvent = true ∧ (∃ t, exec .preset1 midway = .next t) ∧ (∀ b, Instr.preset1 ≠ .deskRx b) ∧
    (∀ b, Instr.preset1 ≠ .remRx b) ∧ (∀ g, Instr.preset1 ≠ .moveTo g) ∧ Instr.preset1 ≠ .stop ∧
    Instr.preset1 ≠ .cycle :=
  ⟨rfl, ⟨_, rfl⟩, nofun, nofun, nofun, nofun, nofun⟩

/-- Idle, with different targets and different dead bytes. -/
theorem witness_DeadStorageCannotBeObserved :
    let s : State := { midway with mvState := .idle }
    let t : State := { s with tgtPos := 0, dbuf := #v[0x07, 0xDB, 0x6D, 0x01, 0xFF] }
    CoreInv s ∧ SameToHost s t ∧ ∃ s', step s = .next s' :=
  ⟨{ midway_inv with deskAbsent := by decide },
    ⟨by decide, by decide, by decide, by decide, by decide, by decide, rfl, rfl, rfl, rfl⟩, _, rfl⟩

theorem witness_OutputPortEncodesTheOldestEvent :
    (start .six).out = [] ∧ ({ midway with out := [.tx 0xA5, .diag 1] } : State).out = .tx 0xA5 :: [.diag 1] ∧
    ({ midway with out := [.heightPub 725] } : State).out = .heightPub 725 :: [] ∧
    ({ midway with out := [.buttonPub true true true true true] } : State).out = .buttonPub true true true true true :: [] ∧
    ({ midway with out := [.diag 3] } : State).out = .diag 3 :: [] ∧ ({ midway with out := [.diag 3] } : State).out ≠ [] :=
  ⟨rfl, rfl, rfl, rfl, rfl, by decide⟩

end Sys2Proof.Machine.Tests
end

section
/-! The ready/valid channels in equations (R36, R57, R239), and what a step does with an offered transaction (O6). -/

namespace Sys2Proof.Machine

/-! ## The input side is ready exactly when nothing is pending -/

@[simp] theorem evtReady_eq_true_iff (s : State) : evtReady s = true ↔ s.out = [] := List.isEmpty_iff

@[simp] theorem evtReady_eq_false_iff (s : State) : evtReady s = false ↔ s.out ≠ [] := List.isEmpty_eq_false_iff

/-! ## An offered transaction: decoded and run, or kept waiting -/

theorem runOffer_of_decode {o : Offer} {i : Instr} (hdec : decode o = .ok i) (s : State) : runOffer o s = exec i s := by
  rw [runOffer, hdec]

theorem step_of_offer {s : State} {o : Offer} {rest : List HostInput} (hhost : s.host = .offer o :: rest) :
    step s = if evtReady s then runOffer o { s with host := rest } else .next (takeOutput s) := by
  rw [step, hhost]

theorem step_of_offer_ready {s : State} {o : Offer} {rest : List HostInput} (hhost : s.host = .offer o :: rest)
    (hout : s.out = []) : step s = runOffer o { s with host := rest } := by
  rw [step_of_offer hhost, if_pos ((evtReady_eq_true_iff s).2 hout)]

/-- The transaction stays the next input: `takeOutput` leaves `host` as it is (log entry 5). -/
theorem step_of_offer_pending {s : State} {o : Offer} {rest : List HostInput} (hhost : s.host = .offer o :: rest)
    (hout : s.out ≠ []) : step s = .next (takeOutput s) := by
  rw [step_of_offer hhost, if_neg (mt (evtReady_eq_true_iff s).1 hout)]

/-- Settles O6, one clause for each value of `evt_ready`. Well-formedness plays no part: the step runs whatever was decoded. -/
theorem stepRunsTheOfferedInstruction : Obligations.StepRunsTheOfferedInstruction := by
  intro s o rest i hhost hdec _
  refine ⟨fun hout => ?ready, fun e es hout => ?pending⟩
  case ready =>
    calc step s = runOffer o { s with host := rest } := step_of_offer_ready hhost hout
      _ = exec i { s with host := rest } := runOffer_of_decode hdec _
  case pending =>
    calc step s = .next (takeOutput s) := step_of_offer_pending hhost (by simp [hout])
      _ = .next { s with out := es, taken := s.taken ++ [e] } := by rw [takeOutput_cons hout]

end Sys2Proof.Machine
end

section
/-! The 26 rows by what they do: nine meanings, and what each of them writes and leaves alone (R12, R22; O12, O19, O49, O54). -/

namespace Sys2Proof.Machine

/-! ## Rows that share a meaning -/

/-- What a row of the table does. The presets, `SIM_BTN` and the command rows all send a frame (R152 to R155; log entry 7), the
illegal words are all handled alike (R73), and a received frame is its bytes (log entry 6). -/
inductive Meaning where
  | desk (b : Byte)
  | remote (b : Byte)
  | cycle
  | moveTo (g : Tenths)
  | stop
  | send (p : Byte)
  | illegal
  | deskBytes (bs : List Byte)
  | remoteBytes (bs : List Byte)

/-- The meaning of each row. -/
def meaning : Instr → Meaning
  | .deskRx b => .desk b
  | .remRx b => .remote b
  | .cycle => .cycle
  | .moveTo g => .moveTo g
  | .stop => .stop
  | .preset1 | .cmdPreset1 => .send presetMask1
  | .preset2 | .cmdPreset2 => .send presetMask2
  | .preset3 | .cmdPreset3 => .send presetMask3
  | .cmdDriveUp => .send driveUp
  | .cmdDriveDown => .send driveDown
  | .simBtn p | .cmdButton p => .send p
  | .reservedOp0 _ | .reservedOpA _ | .reservedOpB _ | .reservedOpC _ | .reservedOpD _ | .reservedOpE _ | .reservedOpF _
  | .illegalNonzeroMbz _ _ => .illegal
  | .deskStatus6 h t u y c => .deskBytes [deskStart, h, t, u, y, c]
  | .deskStatus5 h t u c => .deskBytes [deskStart, h, t, u, c]
  | .remoteKeys r m x c => .remoteBytes [remoteStart, r, m, x, c]

/-- A meaning run from a state. -/
def Meaning.run : Meaning → State → Result
  | .desk b, s => deskByte b s
  | .remote b, s => remByte b s
  | .cycle, s => execCycle s
  | .moveTo g, s => execMoveTo g s
  | .stop, s => execStop s
  | .send p, s => .next (txFrame p s)
  | .illegal, s => .next (illegalWord s)
  | .deskBytes bs, s => forBytes deskByte bs s
  | .remoteBytes bs, s => forBytes remByte bs s

theorem exec_eq_run (i : Instr) (s : State) : exec i s = (meaning i).run s := by
  cases i <;> rfl

/-- A predicate that the taking of outputs and every event keep is kept by every instruction. -/
theorem exec_keeps {P : State → Prop} (take : ∀ s, P s → P (takeAll s))
    (desk : ∀ b s t, P s → deskByte b s = .next t → P t) (remote : ∀ b s t, P s → remByte b s = .next t → P t)
    (cycle : ∀ s t, P s → execCycle s = .next t → P t) (moveTo : ∀ g s t, P s → execMoveTo g s = .next t → P t)
    (stop : ∀ s, P s → P { s with mvState := .idle }) (send : ∀ p s, P s → P (txFrame p s))
    (illegal : ∀ s, P s → P (illegalWord s)) {i : Instr} {s t : State} (hs : P s) (h : exec i s = .next t) : P t := by
  rw [exec_eq_run] at h
  cases hm : meaning i <;> rw [hm] at h
  case desk b => exact desk b s t hs h
  case remote b => exact remote b s t hs h
  case cycle => exact cycle s t hs h
  case moveTo g => exact moveTo g s t hs h
  case stop => cases h; exact stop s hs
  case send p => cases h; exact send p s hs
  case illegal => cases h; exact illegal s hs
  case deskBytes bs => exact forBytes_keeps take desk bs s t hs h
  case remoteBytes bs => exact forBytes_keeps take remote bs s t hs h

/-! ## What each event writes -/

/-- `MOVE_TO` without the desk transport is dropped, else it writes the target and the direction (R170). -/
theorem execMoveTo_cases {g : Tenths} {s t : State} (h : execMoveTo g s = .next t) :
    t = s ∨ (s.cfg.deskPresent = true ∧ t = { s with tgtPos := g, mvState := direction g s.curPos }) := by
  unfold execMoveTo at h
  split at h
  · cases h; exact .inr ⟨by assumption, rfl⟩
  · cases h; exact .inl rfl

/-- A finished desk frame is the resync with at most one event emitted, or an accepted reading (R113 to R115). -/
theorem deskFrame_outcomes (s : State) :
    deskFrame s = emitAll [.diag 1] (deskResync s) ∨ deskFrame s = deskResync s ∨
      ∃ h, deskReading s = some h ∧ deskFrame s = acceptReading h (deskResync s) := by
  obtain ⟨_, hf⟩ | ⟨_, _, hf⟩ | ⟨h, _, hr, hf⟩ := deskFrame_cases s
  · exact .inl hf
  · exact .inr (.inl hf)
  · exact .inr (.inr ⟨h, hr, by rw [hf, acceptReading_eq, acceptReading_eq]; rfl⟩)

/-- A desk byte writes the desk scanner and the reading, never clears `pos_known`, and emits (R22, R28). -/
theorem deskByte_writes {b : Byte} {s t : State} (h : deskByte b s = .next t) :
    ∃ ph n buf cur known es, (s.posKnown = true → known = true) ∧
      t = { s with dphase := ph, dcnt := n, dbuf := buf, curPos := cur, posKnown := known, out := s.out ++ es } := by
  obtain rfl | ⟨_, _, _, rfl⟩ | ⟨_, _, _, _, rfl⟩ | ⟨_, _, _, _, rfl⟩ := deskByte_cases h
  · exact ⟨_, _, _, _, _, [], id, by rw [List.append_nil]⟩
  · exact ⟨_, _, _, _, _, [], id, by rw [List.append_nil]⟩
  · exact ⟨_, _, _, _, _, [], id, by rw [List.append_nil]; rfl⟩
  · obtain hf | hf | ⟨r, _, hf⟩ := deskFrame_outcomes (deskAppend b s)
    · exact ⟨_, _, _, _, _, [.diag 1], id, hf⟩
    · exact ⟨_, _, _, _, _, [], id, by rw [List.append_nil]; exact hf⟩
    · exact ⟨_, _, _, _, _, _, fun _ => rfl, by rw [hf, acceptReading_eq]; rfl⟩

theorem setButtons_emitAll (m : Byte) (es : List OutEvent) (s : State) :
    setButtons m (emitAll es s) = emitAll es (setButtons m s) := rfl

/-- A remote byte writes the remote scanner and the buttons, and emits (R22). -/
theorem remByte_writes {b : Byte} {s t : State} (h : remByte b s = .next t) :
    ∃ ph n buf u d m1 m2 m3 es,
      t = { s with
        rphase := ph, rcnt := n, rbuf := buf, btnUp := u, btnDown := d, btnM1 := m1, btnM2 := m2, btnM3 := m3,
        out := s.out ++ es } := by
  obtain ⟨_, rfl⟩ | ⟨_, _, _, rfl⟩ | ⟨_, _, _, rfl⟩ | ⟨_, _, _, rfl⟩ | ⟨_, _, _, rfl⟩ := remByte_cases h
  · exact ⟨_, _, _, _, _, _, _, _, [], by rw [List.append_nil]⟩
  · exact ⟨_, _, _, _, _, _, _, _, _, bridge_eq b s⟩
  · exact ⟨_, _, _, _, _, _, _, _, _, by rw [bridge_eq]; rfl⟩
  · exact ⟨_, _, _, _, _, _, _, _, _, by rw [bridge_eq]; rfl⟩
  · rw [bridge_eq]
    obtain ⟨_, hf⟩ | ⟨_, hf⟩ := remCheck_cases b (emitAll (if s.cfg.deskPresent then [.tx b] else []) s)
    · exact ⟨_, _, _, _, _, _, _, _, _, by rw [hf, emitAll_emitAll]; rfl⟩
    · exact ⟨_, _, _, _, _, _, _, _, _, by rw [hf, remAccept_eq, setButtons_emitAll, emitAll_emitAll]; rfl⟩

/-- `CYCLE` writes `mv_state` and emits (R172). -/
theorem execCycle_writes {s t : State} (h : execCycle s = .next t) :
    ∃ m es, t = { s with mvState := m, out := s.out ++ es } := by
  obtain ⟨_, hc⟩ | ⟨_, _, hc⟩ | ⟨_, _, hc⟩ | ⟨_, _, hc⟩ | ⟨_, _, hc⟩ := execCycle_cases s <;> rw [hc] at h <;> cases h
  · exact ⟨_, [], by rw [List.append_nil]⟩
  · exact ⟨.idle, [], by rw [List.append_nil]⟩
  · exact ⟨_, _, txFrame_eq driveUp s⟩
  · exact ⟨.idle, [], by rw [List.append_nil]⟩
  · exact ⟨_, _, txFrame_eq driveDown s⟩

/-! ## No event goes back on what was emitted, on the flags or on the configuration -/

/-- What every event and the taking of outputs keep: the configuration and the script, set flags, and all that was emitted or
taken, in order, in front of what comes after it (R28, R36, R222). -/
structure Progress (s t : State) : Prop where
  cfg : t.cfg = s.cfg
  host : t.host = s.host
  known : s.posKnown = true → t.posKnown = true
  ill : s.ill = true → t.ill = true
  outputs : s.taken ++ s.out <+: t.taken ++ t.out
  record : s.taken <+: t.taken

theorem Progress.refl (s : State) : Progress s s :=
  ⟨rfl, rfl, id, id, List.prefix_rfl, List.prefix_rfl⟩

theorem Progress.trans {s t u : State} (a : Progress s t) (b : Progress t u) : Progress s u where
  cfg := b.cfg.trans a.cfg
  host := b.host.trans a.host
  known := b.known ∘ a.known
  ill := b.ill ∘ a.ill
  outputs := a.outputs.trans b.outputs
  record := a.record.trans b.record

theorem progress_takeAll (s : State) : Progress s (takeAll s) :=
  ⟨rfl, rfl, id, id, by simp, List.prefix_append _ _⟩

/-- An operation that takes nothing and appends to what is pending makes progress. -/
theorem progress_of_emits {s t : State} {es : List OutEvent} (cfg : t.cfg = s.cfg) (host : t.host = s.host)
    (known : s.posKnown = true → t.posKnown = true) (ill : s.ill = true → t.ill = true) (taken : t.taken = s.taken)
    (out : t.out = s.out ++ es) : Progress s t :=
  ⟨cfg, host, known, ill, by rw [taken, out, ← List.append_assoc]; exact List.prefix_append _ _, by rw [taken]⟩

theorem progress_deskByte {b : Byte} {s t : State} (h : deskByte b s = .next t) : Progress s t := by
  obtain ⟨_, _, _, _, _, _, hk, rfl⟩ := deskByte_writes h
  exact progress_of_emits rfl rfl hk id rfl rfl

theorem progress_remByte {b : Byte} {s t : State} (h : remByte b s = .next t) : Progress s t := by
  obtain ⟨_, _, _, _, _, _, _, _, _, rfl⟩ := remByte_writes h
  exact progress_of_emits rfl rfl id id rfl rfl

theorem progress_execCycle {s t : State} (h : execCycle s = .next t) : Progress s t := by
  obtain ⟨_, _, rfl⟩ := execCycle_writes h
  exact progress_of_emits rfl rfl id id rfl rfl

theorem progress_execMoveTo {g : Tenths} {s t : State} (h : execMoveTo g s = .next t) : Progress s t := by
  obtain rfl | ⟨_, rfl⟩ := execMoveTo_cases h
  · exact .refl _
  · exact ⟨rfl, rfl, id, id, List.prefix_rfl, List.prefix_rfl⟩

theorem progress_txFrame (p : Byte) (s : State) : Progress s (txFrame p s) := by
  rw [txFrame_eq]
  exact progress_of_emits rfl rfl id id rfl rfl

theorem progress_exec {i : Instr} {s t : State} (h : exec i s = .next t) : Progress s t :=
  exec_keeps (P := Progress s) (fun _ p => p.trans (progress_takeAll _)) (fun _ _ _ p hx => p.trans (progress_deskByte hx))
    (fun _ _ _ p hx => p.trans (progress_remByte hx)) (fun _ _ p hx => p.trans (progress_execCycle hx))
    (fun _ _ _ p hx => p.trans (progress_execMoveTo hx))
    (fun _ p => p.trans ⟨rfl, rfl, id, id, List.prefix_rfl, List.prefix_rfl⟩)
    (fun q _ p => p.trans (progress_txFrame q _))
    (fun _ p => p.trans (progress_of_emits rfl rfl id (fun _ => rfl) rfl rfl)) (.refl s) h

/-- A step that is no reset edge makes progress, but for the input it may use up. -/
theorem progress_step {s t : State} (h : step s = .next t) (hr : ∀ x rest, s.host = x :: rest → x.isReset = false) :
    Progress { s with host := t.host } t := by
  have oldest : ∀ e es hs, s.out = e :: es →
      Progress { s with host := hs } { s with out := es, taken := s.taken ++ [e], host := hs } := fun e es hs ho =>
    ⟨rfl, rfl, id, id, by simp [ho], List.prefix_append _ _⟩
  obtain ⟨_, rfl⟩ | ⟨_, rest, _, _, rfl⟩ | ⟨p, rest, _, hh, hp, _⟩ | ⟨_, rest, e, es, _, _, ho, rfl⟩ |
    ⟨_, _, e, es, _, ho, rfl⟩ | ⟨_, rest, _, _, _, _, _, _, hx⟩ := step_cases h
  · exact .refl _
  · exact .refl _
  · exact absurd (hr _ _ hh) (by simp [HostInput.isReset, hp])
  · exact oldest e es rest ho
  · exact oldest e es s.host ho
  · have hp := progress_exec hx
    rw [hp.host]
    exact hp

/-- Settles O12. -/
theorem onlyResetClearsFlagsOrChangesConfig : Obligations.OnlyResetClearsFlagsOrChangesConfig := by
  intro s t h hr
  have hp := progress_step h hr
  exact ⟨hp.known, hp.ill, hp.cfg⟩

/-- Settles O49. -/
theorem outputsAreNeverDroppedOrReordered : Obligations.OutputsAreNeverDroppedOrReordered := by
  intro s t h hr
  have hp := progress_step h hr
  obtain ⟨es, hes⟩ := hp.outputs
  obtain ⟨fs, hfs⟩ := hp.record
  exact ⟨es, hes.symm, fs, hfs.symm⟩

/-! ## Who writes what -/

theorem meaning_of_isEvent {i : Instr} (hi : i.isEvent = true) :
    (∀ bs, meaning i ≠ .deskBytes bs) ∧ ∀ bs, meaning i ≠ .remoteBytes bs := by
  cases i <;> simp_all [Instr.isEvent, meaning]

theorem meaning_eq_desk {i : Instr} {b : Byte} (h : meaning i = .desk b) : i = .deskRx b := by
  cases i <;> simp_all [meaning]

theorem meaning_eq_remote {i : Instr} {b : Byte} (h : meaning i = .remote b) : i = .remRx b := by
  cases i <;> simp_all [meaning]

theorem meaning_eq_cycle {i : Instr} (h : meaning i = .cycle) : i = .cycle := by
  cases i <;> simp_all [meaning]

theorem meaning_eq_moveTo {i : Instr} {g : Tenths} (h : meaning i = .moveTo g) : i = .moveTo g := by
  cases i <;> simp_all [meaning]

theorem meaning_eq_stop {i : Instr} (h : meaning i = .stop) : i = .stop := by
  cases i <;> simp_all [meaning]

/-- Settles O54, one case for each meaning. A case names the one row that has it (`meaning_eq_desk` and so on), or holds for every
row: what is written is then in the record update, and all else is the old element. -/
theorem eachElementHasItsOwnWriters : Obligations.EachElementHasItsOwnWriters := by
  intro i s t hi h
  rw [exec_eq_run] at h
  cases hm : meaning i <;> rw [hm] at h
  case desk b =>
    obtain ⟨_, _, _, _, _, _, _, rfl⟩ := deskByte_writes h
    exact ⟨fun no => absurd (meaning_eq_desk hm) (no b), by simp⟩
  case remote b =>
    obtain ⟨_, _, _, _, _, _, _, _, _, rfl⟩ := remByte_writes h
    exact ⟨by simp, fun no => absurd (meaning_eq_remote hm) (no b), by simp⟩
  case cycle =>
    obtain ⟨_, _, rfl⟩ := execCycle_writes h
    exact ⟨by simp, by simp, fun _ _ no => absurd (meaning_eq_cycle hm) no, by simp⟩
  case moveTo g =>
    have moved := meaning_eq_moveTo hm
    obtain rfl | ⟨_, rfl⟩ := execMoveTo_cases h
    · simp
    · exact ⟨by simp, by simp, fun no => absurd moved (no g), fun no => absurd moved (no g), by simp⟩
  case stop =>
    cases h
    exact ⟨by simp, by simp, fun _ no => absurd (meaning_eq_stop hm) no, by simp⟩
  case send p =>
    cases h
    simp [txFrame_eq]
  case illegal =>
    cases h
    refine ⟨by simp [illegalWord_eq], by simp [illegalWord_eq], by simp [illegalWord_eq], by simp [illegalWord_eq], ?_⟩
    rintro (⟨_, rfl⟩ | ⟨_, rfl⟩ | rfl | rfl | rfl | rfl | rfl | ⟨_, rfl⟩ | ⟨_, rfl⟩) <;> cases hm
  case deskBytes bs => exact absurd hm ((meaning_of_isEvent hi).1 bs)
  case remoteBytes bs => exact absurd hm ((meaning_of_isEvent hi).2 bs)

end Sys2Proof.Machine
end

section
/-! The invariant: reset has it, every operation the meanings share keeps it, hence every step (R22 to R26, R201, R202; O51, O52). -/

namespace Sys2Proof.Machine

/-- O51's second half, for every record and script. -/
theorem coreInv_resetWith {c : Cfg} {es : List OutEvent} (hs : List HostInput) (table : c.segTable.legal = true)
    (legal : ∀ e ∈ es, e.legal) : CoreInv (State.resetWith c es hs) where
  deskEmpty _ := rfl
  deskRoom := nofun
  deskDead i _ := by fin_cases i <;> rfl
  remEmpty _ := rfl
  remDead i _ := by fin_cases i <;> rfl
  curRange := by simp
  curUnknown _ := rfl
  deskAbsent _ := ⟨rfl, rfl, rfl, nofun⟩
  remoteAbsent _ := ⟨rfl, rfl, rfl, rfl, rfl, rfl⟩
  table := table
  outLegal := by simpa using legal

/-- Settles O51. -/
theorem resetSatisfiesTheInvariant : Obligations.ResetSatisfiesTheInvariant :=
  ⟨coreInv_resetWith [] (by decide) nofun, fun _ _ hs table legal => coreInv_resetWith hs table legal⟩

/-! ## The shared operations -/

theorem coreInv_host {s : State} (inv : CoreInv s) (hs : List HostInput) : CoreInv { s with host := hs } := { inv with }

theorem coreInv_setIll {s : State} (inv : CoreInv s) : CoreInv (setIll s) := { inv with }

/-- Outputs move from what is pending to what was taken; none is added. -/
theorem coreInv_taken {s : State} {taken out : List OutEvent} (inv : CoreInv s) (all : taken ++ out = s.taken ++ s.out)
    (sub : out ⊆ s.out) : CoreInv { s with out := out, taken := taken } :=
  { inv with
    deskAbsent := fun hd =>
      have ⟨hm, hp, hk, ho⟩ := inv.deskAbsent hd
      ⟨hm, hp, hk, fun e he => ho e (sub he)⟩
    outLegal := fun e he => inv.outLegal e (all ▸ he) }

theorem coreInv_takeAll {s : State} (inv : CoreInv s) : CoreInv (takeAll s) :=
  coreInv_taken inv (List.append_nil _) (List.nil_subset _)

theorem coreInv_emitAll {s : State} {es : List OutEvent} (inv : CoreInv s) (legal : ∀ e ∈ es, e.legal)
    (quiet : s.cfg.deskPresent = false → ∀ e ∈ es, e.isTx = false) : CoreInv (emitAll es s) :=
  { inv with
    deskAbsent := fun hd =>
      have ⟨hm, hp, hk, ho⟩ := inv.deskAbsent hd
      ⟨hm, hp, hk, fun e he => (List.mem_append.1 he).elim (ho e) (quiet hd e)⟩
    outLegal := fun e he => by
      rw [emitAll_taken, emitAll_out, ← List.append_assoc] at he
      exact (List.mem_append.1 he).elim (inv.outLegal e) (legal e) }

/-- An event that is no byte for the desk bus can be emitted with or without the desk. -/
theorem coreInv_emit {s : State} {e : OutEvent} (inv : CoreInv s) (legal : e.legal) (quiet : e.isTx = false) :
    CoreInv (emitAll [e] s) :=
  coreInv_emitAll inv (by simpa using legal) (by simpa using fun _ => quiet)

theorem legal_of_mem_frameEvents {p : Byte} {e : OutEvent} (h : e ∈ frameEvents p) : e.legal := by
  obtain ⟨b, _, rfl⟩ := List.mem_map.1 h
  exact trivial

theorem coreInv_txFrame {s : State} (inv : CoreInv s) (p : Byte) : CoreInv (txFrame p s) := by
  unfold txFrame
  split
  case isTrue hd => exact coreInv_emitAll inv (fun _ => legal_of_mem_frameEvents) (by simp [hd])
  case isFalse => exact inv

theorem coreInv_bridge {s : State} (inv : CoreInv s) (b : Byte) : CoreInv (bridge b s) := by
  unfold bridge
  split
  case isTrue hd => exact coreInv_emitAll inv (by simp [OutEvent.legal]) (by simp [hd])
  case isFalse => exact inv

theorem coreInv_illegalWord {s : State} (inv : CoreInv s) : CoreInv (illegalWord s) :=
  coreInv_emit (coreInv_setIll inv) (by simp [OutEvent.legal]) rfl

/-! ## Movement -/

theorem coreInv_idle {s : State} (inv : CoreInv s) : CoreInv { s with mvState := .idle } :=
  { inv with
    deskAbsent := fun hd =>
      have ⟨_, rest⟩ := inv.deskAbsent hd
      ⟨rfl, rest⟩ }

theorem coreInv_execMoveTo {g : Tenths} {s t : State} (inv : CoreInv s) (h : execMoveTo g s = .next t) : CoreInv t := by
  obtain rfl | ⟨hd, rfl⟩ := execMoveTo_cases h
  · exact inv
  · exact { inv with deskAbsent := fun no => absurd (hd.symm.trans no) nofun }

theorem coreInv_execCycle {s t : State} (inv : CoreInv s) (h : execCycle s = .next t) : CoreInv t := by
  obtain ⟨_, hc⟩ | ⟨_, _, hc⟩ | ⟨_, _, hc⟩ | ⟨_, _, hc⟩ | ⟨_, _, hc⟩ := execCycle_cases s <;> rw [hc] at h <;> cases h
  · exact inv
  · exact coreInv_idle inv
  · exact coreInv_txFrame inv _
  · exact coreInv_idle inv
  · exact coreInv_txFrame inv _

/-! ## The desk scanner -/

/-- A start byte opens an empty buffer: in SEARCHING the count is 0 already, so every element is dead already (R23, R24). -/
theorem coreInv_deskOpen {s : State} (inv : CoreInv s) (hd : s.cfg.deskPresent = true) (hp : s.dphase = .searching) :
    CoreInv { s with dphase := .accumulating, dcnt := 0 } :=
  { inv with
    deskEmpty := nofun
    deskRoom := fun _ => by cases s.cfg.msgLen <;> simp [msgLenNat]
    deskDead := inv.deskEmpty hp ▸ inv.deskDead
    deskAbsent := fun no => absurd (hd.symm.trans no) nofun }

theorem coreInv_deskAppend {s : State} (inv : CoreInv s) (b : Byte) (hd : s.cfg.deskPresent = true)
    (hp : s.dphase = .accumulating) (hroom : s.dcnt.toNat + 1 < msgLenNat s.cfg.msgLen - 1) : CoreInv (deskAppend b s) := by
  have hlen : msgLenNat s.cfg.msgLen ≤ 6 := by cases s.cfg.msgLen <;> simp [msgLenNat]
  have hcnt : (s.dcnt + 1).toNat = s.dcnt.toNat + 1 := by rw [BitVec.toNat_add]; simp; omega
  exact { inv with
    deskEmpty := fun no => absurd (hp.symm.trans no) nofun
    deskRoom := fun _ => hcnt ▸ hroom
    deskDead := fun i hi => by
      rw [deskAppend_dcnt, hcnt] at hi
      simpa [Vector.getElem_setIfInBounds, show s.dcnt.toNat ≠ i.val by omega] using inv.deskDead i (by omega)
    deskAbsent := fun no => absurd (hd.symm.trans no) nofun }

theorem coreInv_deskResync {s : State} (inv : CoreInv s) : CoreInv (deskResync s) :=
  { inv with
    deskEmpty := fun _ => rfl
    deskRoom := nofun
    deskDead := fun i _ => by fin_cases i <;> rfl
    deskAbsent := fun hd =>
      have ⟨hm, _, rest⟩ := inv.deskAbsent hd
      ⟨hm, rfl, rest⟩ }

/-- A reading is at most 9990 tenths: three digits, times 10 without the decimal point (R9, R114). -/
theorem deskReading_le {s : State} {r : Tenths} (h : deskReading s = some r) : r.toNat ≤ 9990 := by
  unfold deskReading at h
  split_ifs at h
  obtain ⟨d0, d1, d2, _, _, _, hr⟩ := segReading_digits h
  split at hr <;> omega

theorem coreInv_acceptReading {s : State} {r : Tenths} (inv : CoreInv s) (hd : s.cfg.deskPresent = true)
    (hr : r.toNat ≤ 9990) : CoreInv (acceptReading r s) := by
  have published : CoreInv (emitAll (if s.posKnown = false ∨ r ≠ s.curPos then [.heightPub r] else []) s) :=
    coreInv_emitAll inv (by split <;> simp [OutEvent.legal, hr]) (by simp [hd])
  rw [acceptReading_eq]
  exact { published with
    curRange := hr
    curUnknown := nofun
    deskAbsent := fun no => absurd (hd.symm.trans no) nofun }

/-- A full buffer is outside the invariant, but the resync of the same event empties it (R112, R115). -/
theorem coreInv_deskFrame_deskAppend {s : State} (inv : CoreInv s) (b : Byte) (hd : s.cfg.deskPresent = true) :
    CoreInv (deskFrame (deskAppend b s)) := by
  have emptied : CoreInv (deskResync (deskAppend b s)) := show CoreInv (deskResync s) from coreInv_deskResync inv
  obtain hf | hf | ⟨r, hr, hf⟩ := deskFrame_outcomes (deskAppend b s) <;> rw [hf]
  · exact coreInv_emit emptied (by simp [OutEvent.legal]) rfl
  · exact emptied
  · exact coreInv_acceptReading emptied hd (deskReading_le hr)

theorem coreInv_deskByte {b : Byte} {s t : State} (inv : CoreInv s) (h : deskByte b s = .next t) : CoreInv t := by
  obtain rfl | ⟨hd, hp, _, rfl⟩ | ⟨hd, hp, _, hroom, rfl⟩ | ⟨hd, _, _, _, rfl⟩ := deskByte_cases h
  · exact inv
  · exact coreInv_deskOpen inv hd hp
  · exact coreInv_deskAppend inv b hd hp hroom
  · exact coreInv_deskFrame_deskAppend inv b hd

/-! ## The remote scanner -/

theorem coreInv_remOpen {s : State} (inv : CoreInv s) (hr : s.cfg.remotePresent = true) (hp : s.rphase = .searching) :
    CoreInv { s with rphase := .accumulating, rcnt := 0 } :=
  { inv with
    remEmpty := nofun
    remDead := inv.remEmpty hp ▸ inv.remDead
    remoteAbsent := fun no => absurd (hr.symm.trans no) nofun }

theorem coreInv_remAppend {s : State} (inv : CoreInv s) (b : Byte) (hr : s.cfg.remotePresent = true)
    (hp : s.rphase = .accumulating) (hroom : s.rcnt.toNat < 3) : CoreInv (remAppend b s) := by
  have hcnt : (s.rcnt + 1).toNat = s.rcnt.toNat + 1 := by rw [BitVec.toNat_add]; simp; omega
  exact { inv with
    remEmpty := fun no => absurd (hp.symm.trans no) nofun
    remDead := fun i hi => by
      rw [remAppend_rcnt, hcnt] at hi
      simpa [Vector.getElem_setIfInBounds, show s.rcnt.toNat ≠ i.val by omega] using inv.remDead i (by omega)
    remoteAbsent := fun no => absurd (hr.symm.trans no) nofun }

theorem coreInv_remResync {s : State} (inv : CoreInv s) : CoreInv (remResync s) :=
  { inv with
    remEmpty := fun _ => rfl
    remDead := fun i _ => by fin_cases i <;> rfl
    remoteAbsent := fun hr =>
      have ⟨_, rest⟩ := inv.remoteAbsent hr
      ⟨rfl, rest⟩ }

theorem coreInv_remAccept {s : State} (inv : CoreInv s) (m : Byte) (hr : s.cfg.remotePresent = true) :
    CoreInv (remAccept m s) := by
  have pressed : CoreInv (setButtons m s) := { inv with remoteAbsent := fun no => absurd (hr.symm.trans no) nofun }
  have published : CoreInv (publishButtons (setButtons m s)) := coreInv_emit pressed trivial rfl
  unfold remAccept
  split
  · exact coreInv_txFrame published m
  · exact published

theorem coreInv_remCheck {s : State} (inv : CoreInv s) (c : Byte) (hr : s.cfg.remotePresent = true) :
    CoreInv (remCheck c s) := by
  obtain ⟨_, hf⟩ | ⟨_, hf⟩ := remCheck_cases c s <;> rw [hf]
  · exact coreInv_remResync (coreInv_emit inv (by simp [OutEvent.legal]) rfl)
  · exact coreInv_remResync (coreInv_remAccept inv _ hr)

theorem coreInv_remByte {b : Byte} {s t : State} (inv : CoreInv s) (h : remByte b s = .next t) : CoreInv t := by
  have hb : bridge b s = emitAll _ s := bridge_eq b s
  have bridged := coreInv_bridge inv b
  obtain ⟨_, rfl⟩ | ⟨_, _, _, rfl⟩ | ⟨hr, hp, _, rfl⟩ | ⟨hr, hp, hroom, rfl⟩ | ⟨hr, _, _, rfl⟩ := remByte_cases h
  · exact inv
  · exact bridged
  · exact coreInv_remOpen bridged (by rwa [hb]) (by rwa [hb])
  · exact coreInv_remAppend bridged b (by rwa [hb]) (by rwa [hb]) (by rwa [hb])
  · exact coreInv_remCheck bridged b (by rwa [hb])

/-! ## Every instruction and every step -/

theorem coreInv_exec {i : Instr} {s t : State} (inv : CoreInv s) (h : exec i s = .next t) : CoreInv t :=
  exec_keeps (P := CoreInv) (fun _ => coreInv_takeAll) (fun _ _ _ => coreInv_deskByte) (fun _ _ _ => coreInv_remByte)
    (fun _ _ => coreInv_execCycle) (fun _ _ _ => coreInv_execMoveTo) (fun _ => coreInv_idle)
    (fun p _ hs => coreInv_txFrame hs p) (fun _ => coreInv_illegalWord) inv h

/-- The host takes the oldest pending output. -/
theorem coreInv_oldestTaken {s : State} {e : OutEvent} {es : List OutEvent} (inv : CoreInv s) (ho : s.out = e :: es) :
    CoreInv { s with out := es, taken := s.taken ++ [e] } :=
  coreInv_taken inv (by simp [ho]) (by simp [ho])

/-- Settles O52, one case for each thing a step can do. -/
theorem everyStepKeepsTheInvariant : Obligations.EveryStepKeepsTheInvariant := by
  intro s t inv h
  obtain ⟨_, rfl⟩ | ⟨_, rest, _, _, rfl⟩ | ⟨_, rest, _, _, _, _, rfl⟩ | ⟨_, rest, e, es, _, _, ho, rfl⟩ |
    ⟨_, _, e, es, _, ho, rfl⟩ | ⟨_, rest, _, _, _, _, _, _, hx⟩ := step_cases h
  · exact inv
  · exact coreInv_host inv rest
  · exact coreInv_resetWith rest inv.table fun e he => inv.outLegal e (List.mem_append_left _ he)
  · exact coreInv_host (coreInv_oldestTaken inv ho) rest
  · exact coreInv_oldestTaken inv ho
  · exact coreInv_exec (coreInv_host inv rest) hx

/-! ## Received frames complete, and what they leave alone -/

theorem dcnt_lt_of_coreInv {s : State} (inv : CoreInv s) (hp : s.dphase = .accumulating) : s.dcnt.toNat < 5 := by
  have hroom := inv.deskRoom hp
  cases hn : s.cfg.msgLen <;> simp [hn, msgLenNat] at hroom <;> omega

/-- No desk byte faults between steps: the count has a register behind it (R24, R29; log entry 10). -/
theorem deskByte_completes {s : State} (inv : CoreInv s) (b : Byte) : ∃ t, deskByte b s = .next t := by
  unfold deskByte
  split
  · split
    · exact ⟨_, rfl⟩
    next hp =>
      rw [deskAccum, if_pos (dcnt_lt_of_coreInv inv hp)]
      split <;> exact ⟨_, rfl⟩
  · exact ⟨_, rfl⟩

theorem remByte_completes (b : Byte) (s : State) : ∃ t, remByte b s = .next t := by
  unfold remByte
  split <;> exact ⟨_, rfl⟩

/-- `t` is `s` but for the desk scanner, the reading and the output channel. -/
def OnlyDeskWritten (s t : State) : Prop :=
  ∃ ph n buf cur known out taken,
    t = { s with
      dphase := ph, dcnt := n, dbuf := buf, curPos := cur, posKnown := known, out := out, taken := taken }

/-- `t` is `s` but for the remote scanner, the buttons and the output channel. -/
def OnlyRemoteWritten (s t : State) : Prop :=
  ∃ ph n buf u d m1 m2 m3 out taken,
    t = { s with
      rphase := ph, rcnt := n, rbuf := buf, btnUp := u, btnDown := d, btnM1 := m1, btnM2 := m2, btnM3 := m3,
      out := out, taken := taken }

theorem onlyDeskWritten_of_deskBytes {bs : List Byte} {s t : State} (h : forBytes deskByte bs s = .next t) :
    OnlyDeskWritten s t := by
  refine forBytes_rel (R := OnlyDeskWritten) (fun s => ⟨_, _, _, _, _, _, _, rfl⟩) ?trans
    (fun s => ⟨_, _, _, _, _, _, _, rfl⟩) ?one bs s t h
  case trans =>
    rintro s _ _ ⟨_, _, _, _, _, _, _, rfl⟩ ⟨_, _, _, _, _, _, _, rfl⟩
    exact ⟨_, _, _, _, _, _, _, rfl⟩
  case one =>
    intro b s t hb
    obtain ⟨_, _, _, _, _, _, _, rfl⟩ := deskByte_writes hb
    exact ⟨_, _, _, _, _, _, _, rfl⟩

theorem onlyRemoteWritten_of_remoteBytes {bs : List Byte} {s t : State} (h : forBytes remByte bs s = .next t) :
    OnlyRemoteWritten s t := by
  refine forBytes_rel (R := OnlyRemoteWritten) (fun s => ⟨_, _, _, _, _, _, _, _, _, _, rfl⟩) ?trans
    (fun s => ⟨_, _, _, _, _, _, _, _, _, _, rfl⟩) ?one bs s t h
  case trans =>
    rintro s _ _ ⟨_, _, _, _, _, _, _, _, _, _, rfl⟩ ⟨_, _, _, _, _, _, _, _, _, _, rfl⟩
    exact ⟨_, _, _, _, _, _, _, _, _, _, rfl⟩
  case one =>
    intro b s t hb
    obtain ⟨_, _, _, _, _, _, _, _, _, rfl⟩ := remByte_writes hb
    exact ⟨_, _, _, _, _, _, _, _, _, _, rfl⟩

/-- What O19 says of a desk frame, for any desk bytes. -/
theorem deskBytes_complete {s : State} (inv : CoreInv s) {i : Instr} {bs : List Byte} (hm : meaning i = .deskBytes bs) :
    ∃ v, exec i s = .next v ∧ OnlyDeskWritten s v ∧ ∃ es, v.taken ++ v.out = s.taken ++ s.out ++ es := by
  have one : ∀ b s, CoreInv s → ∃ t, deskByte b s = .next t ∧ CoreInv t := fun b s hs =>
    have ⟨t, ht⟩ := deskByte_completes hs b
    ⟨t, ht, coreInv_deskByte hs ht⟩
  obtain ⟨v, hv, _⟩ := forBytes_completes (P := CoreInv) (fun _ => coreInv_takeAll) one bs s inv
  have hx : exec i s = .next v := by rw [exec_eq_run, hm]; exact hv
  obtain ⟨es, hes⟩ := (progress_exec hx).outputs
  exact ⟨v, hx, onlyDeskWritten_of_deskBytes hv, es, hes.symm⟩

/-- What O19 says of a remote frame, for any remote bytes. -/
theorem remoteBytes_complete (s : State) {i : Instr} {bs : List Byte} (hm : meaning i = .remoteBytes bs) :
    ∃ v, exec i s = .next v ∧ OnlyRemoteWritten s v ∧ ∃ es, v.taken ++ v.out = s.taken ++ s.out ++ es := by
  have one : ∀ b s, True → ∃ t, remByte b s = .next t ∧ True := fun b s _ =>
    have ⟨t, ht⟩ := remByte_completes b s
    ⟨t, ht, trivial⟩
  obtain ⟨v, hv, _⟩ := forBytes_completes (P := fun _ => True) (fun _ _ => trivial) one bs s trivial
  have hx : exec i s = .next v := by rw [exec_eq_run, hm]; exact hv
  obtain ⟨es, hes⟩ := (progress_exec hx).outputs
  exact ⟨v, hx, onlyRemoteWritten_of_remoteBytes hv, es, hes.symm⟩

/-- Settles O19. -/
theorem receivedFramesCompleteFromEveryState : Obligations.ReceivedFramesCompleteFromEveryState := by
  intro s inv
  refine ⟨fun h t u y c => ?six, fun h t u c => ?five, fun r m x c => ?remote⟩
  case six =>
    obtain ⟨_, hx, ⟨_, _, _, _, _, _, _, rfl⟩, hes⟩ :=
      deskBytes_complete inv (i := .deskStatus6 h t u y c) rfl
    exact ⟨_, hx, rfl, rfl, rfl, rfl, rfl, rfl, rfl, rfl, rfl, rfl, rfl, rfl, rfl, hes⟩
  case five =>
    obtain ⟨_, hx, ⟨_, _, _, _, _, _, _, rfl⟩, hes⟩ :=
      deskBytes_complete inv (i := .deskStatus5 h t u c) rfl
    exact ⟨_, hx, rfl, rfl, rfl, rfl, rfl, rfl, rfl, rfl, rfl, rfl, rfl, rfl, rfl, hes⟩
  case remote =>
    obtain ⟨_, hx, ⟨_, _, _, _, _, _, _, _, _, _, rfl⟩, hes⟩ :=
      remoteBytes_complete s (i := .remoteKeys r m x c) rfl
    exact ⟨_, hx, rfl, rfl, rfl, rfl, rfl, rfl, rfl, rfl, rfl, rfl, hes⟩

end Sys2Proof.Machine
end

section
/-! The reset edge's refusal, the register images and the output port (R33, R34, R37, R38; O10, O56, O57). -/

namespace Sys2Proof.Machine

theorem msgLenOfBits_eq_none {b : BitVec 3} (h5 : b ≠ 5) (h6 : b ≠ 6) : msgLenOfBits b = none := by
  rw [msgLenOfBits, if_neg h5, if_neg h6]

/-- Settles O10. -/
theorem badMessageLengthIsRefused : Obligations.BadMessageLengthIsRefused := by
  intro s p rest hhost hrst h5 h6
  calc step s = clockEdge p { s with host := rest } := by rw [step, hhost]
    _ = resetEdge p { s with host := rest } := by rw [clockEdge, if_pos hrst]
    _ = .refused (.badMsgLen p.cfgMsgLen) := by rw [resetEdge, msgLenOfBits_eq_none h5 h6]

/-! ## Fields of a register image -/

/-- A field placed above `n` lower bits weighs `2 ^ n`. -/
theorem toNat_field_append {m n : Nat} (hi : BitVec m) (lo : BitVec n) :
    (hi ++ lo).toNat = hi.toNat * 2 ^ n + lo.toNat := by
  rw [BitVec.toNat_append, ← Nat.shiftLeft_add_eq_or_of_lt lo.isLt, Nat.shiftLeft_eq]

@[simp] theorem toNat_bit (b : Bool) : (bit b).toNat = b.toNat := by
  cases b <;> rfl

@[simp] theorem toNat_phaseCode (p : Phase) : (phaseCode p).toNat = if p = .accumulating then 1 else 0 := by
  cases p <;> rfl

@[simp] theorem toNat_msgLenBits (n : MsgLen) : (msgLenBits n).toNat = msgLenNat n := by
  cases n <;> rfl

theorem mvCode_eq_iff (m : MvState) :
    (mvCode m = 0 ↔ m = .idle) ∧ (mvCode m = 1 ↔ m = .raising) ∧ (mvCode m = 2 ↔ m = .lowering) := by
  cases m <;> decide

theorem toNat_buttons (s : State) :
    (buttons s).toNat =
      s.btnUp.toNat + 2 * s.btnDown.toNat + 4 * s.btnM1.toNat + 8 * s.btnM2.toNat + 16 * s.btnM3.toNat := by
  simp only [buttons, toNat_field_append, toNat_bit]
  omega

theorem toNat_regS3 (s : State) : (regS3 s).toNat = (buttons s).toNat := by
  simp only [regS3, toNat_field_append, BitVec.toNat_ofNat]
  omega

/-- Settles O56: a register image is the sum of its fields, each times the weight of its lowest bit. -/
theorem registersAndLevelsShowTheState : Obligations.RegistersAndLevelsShowTheState := by
  intro s
  refine ⟨?s0, ?s1, rfl, by rw [toNat_regS3, toNat_buttons], toNat_regS3 s, rfl, ?s5, ?s6, rfl, rfl, rfl,
    mvCode_eq_iff s.mvState⟩
  case s0 =>
    simp only [regS0, toNat_field_append, toNat_bit, toNat_msgLenBits, BitVec.toNat_ofNat]
    omega
  case s1 =>
    simp only [regS1, opState, toNat_field_append, toNat_bit, BitVec.toNat_ofNat]
    omega
  case s5 =>
    simp only [regS5, toNat_field_append, toNat_phaseCode]
    omega
  case s6 =>
    simp only [regS6, toNat_field_append, toNat_phaseCode]
    omega

/-! ## The output port -/

theorem outPort_cons {s : State} {e : OutEvent} {es : List OutEvent} (h : s.out = e :: es) :
    outPort s = some (outKind e, outData e) := by
  simp [outPort, h]

theorem outData_tx (b : Byte) : outData (.tx b) = b.setWidth 16 := by
  simp [outData, BitVec.setWidth_eq_append]

theorem outData_diag (c : BitVec 2) : outData (.diag c) = c.setWidth 16 := by
  simp [outData, BitVec.setWidth_eq_append]

theorem outData_buttonPub (u d m1 m2 m3 : Bool) :
    outData (.buttonPub u d m1 m2 m3) =
      BitVec.ofNat 16 (u.toNat + 2 * d.toNat + 4 * m1.toNat + 8 * m2.toNat + 16 * m3.toNat) := by
  apply BitVec.eq_of_toNat_eq
  have := u.toNat_le; have := d.toNat_le; have := m1.toNat_le; have := m2.toNat_le; have := m3.toNat_le
  simp only [outData, toNat_field_append, toNat_bit, BitVec.toNat_ofNat]
  omega

/-- Settles O57. -/
theorem outputPortEncodesTheOldestEvent : Obligations.OutputPortEncodesTheOldestEvent := by
  intro s es
  refine ⟨fun h => by simp [outValid, h], fun b h => ?tx, fun r h => outPort_cons h, fun u d m1 m2 m3 h => ?buttons,
    fun c h => ?diag, fun h => by simp [outValid, h]⟩
  case tx => rw [outPort_cons h, outData_tx]; rfl
  case buttons => rw [outPort_cons h, outData_buttonPub]; rfl
  case diag => rw [outPort_cons h, outData_diag]; rfl

end Sys2Proof.Machine
end

section
/-! What a host cannot observe: buffer elements at or above the counts, and the target while IDLE (R23, R31, R171; O55). Every
operation the meanings share answers `SameToHost` states alike, and so does every step. -/

namespace Sys2Proof.Machine

/-- From two states a host cannot tell apart, the first with the invariant, whatever `f` answers for the first it answers for
the second too, up to what a host cannot tell apart. -/
def AnswersAlike (f : State → Result) : Prop :=
  ∀ s t s', CoreInv s → SameToHost s t → f s = .next s' → ∃ t', f t = .next t' ∧ SameToHost s' t'

theorem answersAlike_next {f : State → State} (alike : ∀ {s t}, SameToHost s t → SameToHost (f s) (f t)) :
    AnswersAlike fun s => .next (f s) := by
  intro s t s' _ same h
  cases h
  exact ⟨_, rfl, alike same⟩

/-- A branch on something a host can observe. -/
theorem answersAlike_ite {c : State → Bool} {f g : State → Result} (cond : ∀ {s t}, SameToHost s t → c s = c t)
    (yes : AnswersAlike f) (no : AnswersAlike g) : AnswersAlike fun s => if c s then f s else g s := by
  intro s t s' inv same h
  simp only [← cond same]
  cases hc : c s <;> simp only [hc] at h
  · exact no s t s' inv same h
  · exact yes s t s' inv same h

/-! ## The shared operations -/

theorem sameToHost_emitAll {s t : State} (same : SameToHost s t) (es : List OutEvent) :
    SameToHost (emitAll es s) (emitAll es t) :=
  have ⟨hcfg, hout, htaken, hhost⟩ := same.channel
  { same with channel := ⟨hcfg, congrArg (· ++ es) hout, htaken, hhost⟩ }

theorem sameToHost_takeAll {s t : State} (same : SameToHost s t) : SameToHost (takeAll s) (takeAll t) :=
  have ⟨hcfg, hout, htaken, hhost⟩ := same.channel
  { same with channel := ⟨hcfg, rfl, congrArg₂ (· ++ ·) htaken hout, hhost⟩ }

theorem sameToHost_host {s t : State} (same : SameToHost s t) (hs : List HostInput) :
    SameToHost { s with host := hs } { t with host := hs } :=
  have ⟨hcfg, hout, htaken, _⟩ := same.channel
  { same with channel := ⟨hcfg, hout, htaken, rfl⟩ }

theorem sameToHost_takeOutput {s t : State} (same : SameToHost s t) : SameToHost (takeOutput s) (takeOutput t) := by
  obtain ⟨hcfg, hout, htaken, hhost⟩ := same.channel
  cases hs : s.out with
  | nil => rwa [takeOutput_nil hs, takeOutput_nil (hout ▸ hs)]
  | cons e es =>
    rw [takeOutput_cons hs, takeOutput_cons (hout ▸ hs)]
    exact { same with channel := ⟨hcfg, rfl, congrArg (· ++ [e]) htaken, hhost⟩ }

theorem sameToHost_txFrame {s t : State} (same : SameToHost s t) (p : Byte) : SameToHost (txFrame p s) (txFrame p t) := by
  rw [txFrame_eq, txFrame_eq, same.channel.1]
  exact sameToHost_emitAll same _

theorem sameToHost_bridge {s t : State} (same : SameToHost s t) (b : Byte) : SameToHost (bridge b s) (bridge b t) := by
  rw [bridge_eq, bridge_eq, same.channel.1]
  exact sameToHost_emitAll same _

theorem sameToHost_setIll {s t : State} (same : SameToHost s t) : SameToHost (setIll s) (setIll t) :=
  have ⟨hu, hd, h1, h2, h3, _⟩ := same.levels
  { same with levels := ⟨hu, hd, h1, h2, h3, rfl⟩ }

theorem sameToHost_illegalWord {s t : State} (same : SameToHost s t) : SameToHost (illegalWord s) (illegalWord t) :=
  sameToHost_emitAll (sameToHost_setIll same) _

/-! ## Movement: the target is read only while moving -/

theorem sameToHost_idle {s t : State} (same : SameToHost s t) :
    SameToHost { s with mvState := .idle } { t with mvState := .idle } :=
  { same with move := ⟨rfl, fun no => absurd rfl no⟩ }

theorem answersAlike_execMoveTo (g : Tenths) : AnswersAlike (execMoveTo g) := by
  refine answersAlike_ite (c := (·.cfg.deskPresent)) (fun same => by rw [same.channel.1]) ?_ (answersAlike_next id)
  exact answersAlike_next fun same => { same with move := ⟨by rw [same.reading.1], fun _ => rfl⟩ }

theorem answersAlike_execCycle : AnswersAlike execCycle := by
  intro s t s' _ same h
  obtain ⟨hmv, htgt⟩ := same.move
  have hcur := same.reading.1
  unfold execCycle at h ⊢
  rw [← hmv]
  cases hm : s.mvState <;> simp only [hm] at h
  case idle =>
    cases h
    exact ⟨t, rfl, same⟩
  all_goals
    have htgt := htgt (by simp [hm])
    split at h <;> cases h
    · exact ⟨_, if_pos (by rwa [← htgt, ← hcur]), sameToHost_idle same⟩
    · exact ⟨_, if_neg (by rwa [← htgt, ← hcur]), sameToHost_txFrame same _⟩

/-! ## The desk scanner: only a full buffer is read -/

theorem sameToHost_deskOpen {s t : State} (same : SameToHost s t) :
    SameToHost { s with dphase := .accumulating, dcnt := 0 } { t with dphase := .accumulating, dcnt := 0 } :=
  have ⟨_, _, hrp, hrc⟩ := same.scan
  { same with
    scan := ⟨rfl, rfl, hrp, hrc⟩
    desk := fun i hi => absurd hi (by simp) }

theorem sameToHost_deskSearch {s t : State} (same : SameToHost s t) (b : Byte) :
    SameToHost (deskSearch b s) (deskSearch b t) := by
  unfold deskSearch
  split
  · exact sameToHost_deskOpen same
  · exact same

/-- After an append at the same count the elements below the new count agree. -/
theorem sameToHost_deskAppend {s t : State} (same : SameToHost s t) (b : Byte) :
    SameToHost (deskAppend b s) (deskAppend b t) := by
  obtain ⟨hp, hc, hrp, hrc⟩ := same.scan
  refine { same with scan := ⟨hp, congrArg (· + 1) hc, hrp, hrc⟩, desk := fun i hi => ?_ }
  have hle : i.val ≤ s.dcnt.toNat := by
    rw [deskAppend_dcnt, BitVec.toNat_add] at hi
    exact Nat.le_of_lt_succ (hi.trans_le (Nat.mod_le _ _))
  by_cases hi : s.dcnt.toNat = i.val
  · simp [← hc, hi]
  · simpa [Vector.getElem_setIfInBounds, ← hc, hi] using same.desk i (by omega)

theorem sameToHost_deskResync {s t : State} (same : SameToHost s t) : SameToHost (deskResync s) (deskResync t) :=
  have ⟨_, _, hrp, hrc⟩ := same.scan
  { same with
    scan := ⟨rfl, rfl, hrp, hrc⟩
    desk := fun _ _ => rfl }

theorem sameToHost_acceptReading {s t : State} (same : SameToHost s t) (r : Tenths) :
    SameToHost (acceptReading r s) (acceptReading r t) := by
  obtain ⟨hcfg, hout, htaken, hhost⟩ := same.channel
  obtain ⟨hcur, hknown⟩ := same.reading
  rw [acceptReading_eq, acceptReading_eq]
  exact { same with
    reading := ⟨rfl, rfl⟩
    channel := ⟨hcfg, by rw [hout, hcur, hknown], htaken, hhost⟩ }

/-- The buffer bytes a finished frame reads agree when all below `MSG_LEN - 1` do; at length 5 the last register is not read. -/
theorem desk_reads_agree {s t : State} (hcfg : s.cfg = t.cfg)
    (full : ∀ i : Fin 5, i.val < msgLenNat s.cfg.msgLen - 1 → s.dbuf[i] = t.dbuf[i]) :
    deskSum s = deskSum t ∧ deskCheckByte s = deskCheckByte t ∧ deskReading s = deskReading t := by
  have agree : ∀ i : Fin 5, i.val < 4 → s.dbuf[i] = t.dbuf[i] := fun i hi =>
    full i (by cases s.cfg.msgLen <;> simp only [msgLenNat] <;> omega)
  have h0 : s.dbuf[0] = t.dbuf[0] := agree 0 (by decide)
  have h1 : s.dbuf[1] = t.dbuf[1] := agree 1 (by decide)
  have h2 : s.dbuf[2] = t.dbuf[2] := agree 2 (by decide)
  have h3 : s.dbuf[3] = t.dbuf[3] := agree 3 (by decide)
  have reading : deskReading s = deskReading t := by unfold deskReading; rw [hcfg, h0, h1, h2, h3]
  refine ⟨?sum, ?check, reading⟩
  case sum =>
    unfold deskSum
    rw [desk_buffer_eta s.dbuf, desk_buffer_eta t.dbuf, ← hcfg]
    cases s.cfg.msgLen <;> simp [msgLenNat, h0, h1, h2, h3]
  case check =>
    unfold deskCheckByte
    rw [← hcfg]
    cases hn : s.cfg.msgLen
    case five => exact h3
    case six => exact full 4 (by simp [hn, msgLenNat])

theorem sameToHost_deskFrame {s t : State} (same : SameToHost s t)
    (full : ∀ i : Fin 5, i.val < msgLenNat s.cfg.msgLen - 1 → s.dbuf[i] = t.dbuf[i]) :
    SameToHost (deskFrame s) (deskFrame t) := by
  obtain ⟨hsum, hcheck, hreading⟩ := desk_reads_agree same.channel.1 full
  unfold deskFrame deskInterpret
  rw [← hsum, ← hcheck, ← hreading]
  apply sameToHost_deskResync
  split
  · exact sameToHost_emitAll same _
  · cases deskReading s with
    | none => exact same
    | some r => exact sameToHost_acceptReading same r

theorem answersAlike_deskByte (b : Byte) : AnswersAlike (deskByte b) := by
  refine answersAlike_ite (c := (·.cfg.deskPresent)) (fun same => by rw [same.channel.1]) ?_ (answersAlike_next id)
  intro s t s' inv same h
  obtain ⟨hphase, hcnt, _⟩ := same.scan
  have hcfg := same.channel.1
  simp only [← hphase]
  cases hp : s.dphase <;> simp only [hp] at h ⊢
  case searching =>
    cases h
    exact ⟨_, rfl, sameToHost_deskSearch same b⟩
  case accumulating =>
    have appended := sameToHost_deskAppend same b
    have hroom := inv.deskRoom hp
    have hlt := dcnt_lt_of_coreInv inv hp
    rw [deskAccum, if_pos hlt] at h
    rw [deskAccum, ← hcnt, ← hcfg, if_pos hlt]
    split at h <;> cases h
    · exact ⟨_, if_pos (by assumption), appended⟩
    · have hfull : (deskAppend b s).dcnt.toNat = msgLenNat s.cfg.msgLen - 1 := by
        rw [deskAppend_dcnt, BitVec.toNat_add]; simp; omega
      exact ⟨_, if_neg (by assumption), sameToHost_deskFrame appended fun i hi => appended.desk i (hfull ▸ hi)⟩

/-! ## The remote scanner: only a full buffer is read -/

theorem sameToHost_remOpen {s t : State} (same : SameToHost s t) :
    SameToHost { s with rphase := .accumulating, rcnt := 0 } { t with rphase := .accumulating, rcnt := 0 } :=
  have ⟨hp, hc, _, _⟩ := same.scan
  { same with
    scan := ⟨hp, hc, rfl, rfl⟩
    rem := fun i hi => absurd hi (by simp) }

theorem sameToHost_remAppend {s t : State} (same : SameToHost s t) (b : Byte) :
    SameToHost (remAppend b s) (remAppend b t) := by
  obtain ⟨hp, hc, hrp, hrc⟩ := same.scan
  refine { same with scan := ⟨hp, hc, hrp, congrArg (· + 1) hrc⟩, rem := fun i hi => ?_ }
  have hle : i.val ≤ s.rcnt.toNat := by
    rw [remAppend_rcnt, BitVec.toNat_add] at hi
    exact Nat.le_of_lt_succ (hi.trans_le (Nat.mod_le _ _))
  by_cases hi : s.rcnt.toNat = i.val
  · simp [← hrc, hi]
  · simpa [Vector.getElem_setIfInBounds, ← hrc, hi] using same.rem i (by omega)

theorem sameToHost_remResync {s t : State} (same : SameToHost s t) : SameToHost (remResync s) (remResync t) :=
  have ⟨hp, hc, _, _⟩ := same.scan
  { same with
    scan := ⟨hp, hc, rfl, rfl⟩
    rem := fun _ _ => rfl }

theorem sameToHost_setButtons {s t : State} (same : SameToHost s t) (m : Byte) :
    SameToHost (setButtons m s) (setButtons m t) :=
  have ⟨_, _, _, _, _, hill⟩ := same.levels
  { same with levels := ⟨rfl, rfl, rfl, rfl, rfl, hill⟩ }

theorem sameToHost_remAccept {s t : State} (same : SameToHost s t) (m : Byte) :
    SameToHost (remAccept m s) (remAccept m t) := by
  rw [remAccept_eq, remAccept_eq, same.move.1, same.channel.1]
  exact sameToHost_emitAll (sameToHost_setButtons same m) _

theorem sameToHost_remCheck {s t : State} (same : SameToHost s t) (c : Byte) (hfull : ¬s.rcnt.toNat < 3) :
    SameToHost (remCheck c s) (remCheck c t) := by
  have hbuf : s.rbuf = t.rbuf := Vector.ext fun i hi => same.rem ⟨i, hi⟩ (by simp only; omega)
  unfold remCheck
  rw [← hbuf]
  apply sameToHost_remResync
  split
  · exact sameToHost_emitAll same _
  · exact sameToHost_remAccept same _

theorem sameToHost_remScan {s t : State} (same : SameToHost s t) (b : Byte) :
    SameToHost (remScan b s) (remScan b t) := by
  obtain ⟨_, _, hphase, hcnt⟩ := same.scan
  unfold remScan remSearch remAccum
  rw [← hphase, ← hcnt]
  cases s.rphase
  case searching =>
    by_cases hb : b = remoteStart
    · simpa only [if_pos hb] using sameToHost_remOpen same
    · simpa only [if_neg hb] using same
  case accumulating =>
    by_cases hn : s.rcnt.toNat < 3
    · simpa only [if_pos hn] using sameToHost_remAppend same b
    · simpa only [if_neg hn] using sameToHost_remCheck same b hn

theorem answersAlike_remByte (b : Byte) : AnswersAlike (remByte b) := by
  refine answersAlike_ite (c := (·.cfg.remotePresent)) (fun same => by rw [same.channel.1]) ?_ (answersAlike_next id)
  exact answersAlike_next fun same => sameToHost_remScan (sameToHost_bridge same b) b

/-! ## Every instruction and every step -/

/-- A sequence of bytes answers alike: the invariant holds again before each byte. -/
theorem answersAlike_forBytes {f : Byte → State → Result} (alike : ∀ b, AnswersAlike (f b))
    (keeps : ∀ {b s t}, CoreInv s → f b s = .next t → CoreInv t) : ∀ bs, AnswersAlike (forBytes f bs)
  | [] => answersAlike_next id
  | b :: bs => by
    intro s t s' inv same h
    obtain ⟨u, hu, hs'⟩ := andThen_next.1 h
    have inv' := coreInv_takeAll inv
    obtain ⟨v, hv, same'⟩ := alike b _ _ u inv' (sameToHost_takeAll same) hu
    obtain ⟨t', ht', done⟩ := answersAlike_forBytes alike keeps bs u v s' (keeps inv' hu) same' hs'
    exact ⟨t', andThen_next.2 ⟨v, hv, ht'⟩, done⟩

theorem answersAlike_exec (i : Instr) : AnswersAlike (exec i) := by
  rw [funext (exec_eq_run i)]
  cases meaning i
  case desk b => exact answersAlike_deskByte b
  case remote b => exact answersAlike_remByte b
  case cycle => exact answersAlike_execCycle
  case moveTo g => exact answersAlike_execMoveTo g
  case stop => exact answersAlike_next sameToHost_idle
  case send p => exact answersAlike_next (sameToHost_txFrame · p)
  case illegal => exact answersAlike_next sameToHost_illegalWord
  case deskBytes bs => exact answersAlike_forBytes answersAlike_deskByte coreInv_deskByte bs
  case remoteBytes bs => exact answersAlike_forBytes answersAlike_remByte coreInv_remByte bs

theorem answersAlike_runOffer (o : Offer) : AnswersAlike (runOffer o) := by
  intro s t s' inv same h
  obtain ⟨i, hdec, hx⟩ := runOffer_next h
  rw [runOffer_of_decode hdec]
  exact answersAlike_exec i s t s' inv same hx

theorem answersAlike_resetEdge (p : Pins) : AnswersAlike (resetEdge p) := by
  intro s t s' _ same h
  obtain ⟨hcfg, _, htaken, hhost⟩ := same.channel
  unfold resetEdge at h ⊢
  rw [← hcfg, ← htaken, ← hhost]
  cases hn : msgLenOfBits p.cfgMsgLen with
  | none => simp [hn] at h
  | some n =>
    simp only [hn] at h ⊢
    exact ⟨s', h, ⟨⟨rfl, rfl, rfl, rfl⟩, fun _ _ => rfl, fun _ _ => rfl, ⟨rfl, fun _ => rfl⟩, ⟨rfl, rfl⟩,
      ⟨rfl, rfl, rfl, rfl, rfl, rfl⟩, ⟨rfl, rfl, rfl, rfl⟩⟩⟩

theorem evtReady_congr {s t : State} (same : SameToHost s t) : evtReady s = evtReady t := by
  rw [evtReady, evtReady, same.channel.2.1]

theorem answersAlike_clockEdge (p : Pins) : AnswersAlike (clockEdge p) :=
  answersAlike_ite (c := fun _ => p.rst) (fun _ => rfl) (answersAlike_resetEdge p) <|
    answersAlike_ite evtReady_congr
      (answersAlike_ite (c := fun _ => p.evtValid) (fun _ => rfl) (answersAlike_runOffer _) (answersAlike_next id))
      (answersAlike_ite (c := fun _ => p.outReady) (fun _ => rfl) (answersAlike_next sameToHost_takeOutput)
        (answersAlike_next id))

/-- Settles O55, one case for each kind of next input. -/
theorem deadStorageCannotBeObserved : Obligations.DeadStorageCannotBeObserved := by
  intro s t s' inv same h
  have ⟨_, _, _, hhost⟩ := same.channel
  unfold step at h ⊢
  rw [← hhost]
  rcases hh : s.host with _ | ⟨p | o, rest⟩ <;> simp only [hh] at h ⊢
  case nil =>
    cases h
    exact ⟨t, rfl, same⟩
  case cons.edge =>
    exact answersAlike_clockEdge p _ _ s' (coreInv_host inv rest) (sameToHost_host same rest) h
  case cons.offer =>
    rw [← evtReady_congr same]
    cases hr : evtReady s <;> simp only [hr] at h ⊢
    case false =>
      cases h
      exact ⟨_, rfl, sameToHost_takeOutput same⟩
    case true => exact answersAlike_runOffer o _ _ s' (coreInv_host inv rest) (sameToHost_host same rest) h

end Sys2Proof.Machine
end

section
/-! Event words and frames of well-formed instructions decode to what was encoded (R71, R72, R76 to R80; log entry 8). -/

namespace Sys2Proof

@[simp] theorem opOf_eventWord (op : BitVec 4) (o : Operand) : opOf (eventWord op o) = op :=
  BitVec.extractLsb'_append_eq_left

@[simp] theorem opndOf_eventWord (op : BitVec 4) (o : Operand) : opndOf (eventWord op o) = o :=
  BitVec.extractLsb'_append_eq_right

@[simp] theorem mbzOf_operandB (b : Byte) : mbzOf (operandB b) = 0 :=
  BitVec.extractLsb'_append_eq_left

@[simp] theorem byteOf_operandB (b : Byte) : byteOf (operandB b) = b :=
  BitVec.extractLsb'_append_eq_right

theorem decodeB_operandB (op : BitVec 4) (b : Byte) (event : Byte → Instr) : decodeB op (operandB b) event = event b := by
  rw [decodeB, if_pos (mbzOf_operandB b), byteOf_operandB]

theorem decodeB_of_mbz {o : Operand} (hmbz : mbzOf o ≠ 0#8) (op : BitVec 4) (event : Byte → Instr) :
    decodeB op o event = .illegalNonzeroMbz op o := if_neg hmbz

theorem decodeN_of_mbz {o : Operand} (hmbz : o ≠ 0#16) (op : BitVec 4) (event : Instr) :
    decodeN op o event = .illegalNonzeroMbz op o := if_neg hmbz

/-- One case for each opcode of format B, then for each of format N. -/
theorem decodeEvent_of_nonzeroMbz {op : BitVec 4} {o : Operand} (wf : (Instr.illegalNonzeroMbz op o).wf = true) :
    decodeEvent (eventWord op o) = .illegalNonzeroMbz op o := by
  have rows : ((op = 1#4 ∨ op = 2#4) ∨ op = 9#4) ∧ mbzOf o ≠ 0#8 ∨
      ((((op = 3#4 ∨ op = 5#4) ∨ op = 6#4) ∨ op = 7#4) ∨ op = 8#4) ∧ o ≠ 0#16 := by
    simpa [Instr.wf, formatB, formatN, mbzOf] using wf
  obtain ⟨(rfl | rfl) | rfl, hmbz⟩ | ⟨(((rfl | rfl) | rfl) | rfl) | rfl, hmbz⟩ := rows
  all_goals simp [decodeEvent, decodeB_of_mbz, decodeN_of_mbz, hmbz]

theorem decodeCommandFrame_commandBytes (p : Byte) : decodeCommandFrame (commandBytes p) = .ok (commandOf p) := by
  simp [decodeCommandFrame, commandBytes]

theorem commandOf_of_not_namedPayload {p : Byte} (hp : namedPayload p = false) : commandOf p = .cmdButton p := by
  simp_all [namedPayload, commandOf]

/-- A well-formed instruction is what its encoding decodes to: an event word by its opcode, a frame by its bus. -/
theorem decode_encode {i : Instr} (wf : i.wf = true) : decode (encode i) = .ok i := by
  cases i
  case deskRx | remRx | simBtn => simp [encode, decode, decodeEvent, decodeB_operandB]
  case cycle | stop | preset1 | preset2 | preset3 => rfl
  case moveTo | reservedOp0 | reservedOpA | reservedOpB | reservedOpC | reservedOpD | reservedOpE | reservedOpF =>
    simp [encode, decode, decodeEvent]
  case illegalNonzeroMbz => exact congrArg Except.ok (decodeEvent_of_nonzeroMbz wf)
  case deskStatus6 | deskStatus5 | remoteKeys => rfl
  case cmdDriveUp | cmdDriveDown | cmdPreset1 | cmdPreset2 | cmdPreset3 => rfl
  case cmdButton p =>
    have hp : namedPayload p = false := by simpa [Instr.wf] using wf
    calc decode (encode (.cmdButton p)) = .ok (commandOf p) := decodeCommandFrame_commandBytes p
      _ = .ok (.cmdButton p) := by rw [commandOf_of_not_namedPayload hp]

end Sys2Proof
end

section
/-! No instruction reads or writes the host's script, so the instructions one after another and a script of their offers make
the core do the same (R36, R56, R57, R239; log entry 5; O21). -/

namespace Sys2Proof.Machine

/-- The state with another script in front of it. -/
def withHost (hs : List HostInput) (s : State) : State := { s with host := hs }

/-- Whatever the script is, `f` answers the same and leaves the script as it is. -/
def IgnoresHost (f : State → Result) : Prop :=
  ∀ hs s, f (withHost hs s) = andThen (f s) fun t => .next (withHost hs t)

theorem ignoresHost_next {f : State → State} (free : ∀ hs s, f (withHost hs s) = withHost hs (f s)) :
    IgnoresHost fun s => .next (f s) := fun hs s => congrArg _ (free hs s)

/-- A branch on something other than the script. -/
theorem ignoresHost_ite {c : State → Prop} [∀ s, Decidable (c s)] {f g : State → Result}
    (cond : ∀ hs s, c (withHost hs s) ↔ c s) (yes : IgnoresHost f) (no : IgnoresHost g) :
    IgnoresHost fun s => if c s then f s else g s := by
  intro hs s
  by_cases hc : c s
  · simpa only [cond, if_pos hc] using yes hs s
  · simpa only [cond, if_neg hc] using no hs s

/-! ## The shared operations -/

theorem txFrame_withHost (p : Byte) (hs : List HostInput) (s : State) :
    txFrame p (withHost hs s) = withHost hs (txFrame p s) := by
  rw [txFrame_eq, txFrame_eq]; rfl

theorem bridge_withHost (b : Byte) (hs : List HostInput) (s : State) :
    bridge b (withHost hs s) = withHost hs (bridge b s) := by
  rw [bridge_eq, bridge_eq]; rfl

theorem deskSearch_withHost (b : Byte) (hs : List HostInput) (s : State) :
    deskSearch b (withHost hs s) = withHost hs (deskSearch b s) := by
  unfold deskSearch
  split <;> rfl

theorem deskInterpret_withHost (hs : List HostInput) (s : State) :
    deskInterpret (withHost hs s) = withHost hs (deskInterpret s) := by
  have reading : deskReading (withHost hs s) = deskReading s := rfl
  rw [deskInterpret, deskInterpret, reading]
  cases deskReading s with
  | none => rfl
  | some r => simp only [acceptReading_eq]; rfl

theorem deskFrame_withHost (hs : List HostInput) (s : State) :
    deskFrame (withHost hs s) = withHost hs (deskFrame s) := by
  have sum : deskSum (withHost hs s) = deskSum s := rfl
  have check : deskCheckByte (withHost hs s) = deskCheckByte s := rfl
  rw [deskFrame, deskFrame, sum, check, deskInterpret_withHost]
  split <;> rfl

theorem remCheck_withHost (c : Byte) (hs : List HostInput) (s : State) :
    remCheck c (withHost hs s) = withHost hs (remCheck c s) := by
  have sum : checksum [(withHost hs s).rbuf[0], (withHost hs s).rbuf[1], (withHost hs s).rbuf[2]] =
    checksum [s.rbuf[0], s.rbuf[1], s.rbuf[2]] := rfl
  rw [remCheck, remCheck, sum, remAccept_eq, remAccept_eq]
  split <;> rfl

theorem remScan_withHost (b : Byte) (hs : List HostInput) (s : State) :
    remScan b (withHost hs s) = withHost hs (remScan b s) := by
  have phase : (withHost hs s).rphase = s.rphase := rfl
  have count : (withHost hs s).rcnt = s.rcnt := rfl
  unfold remScan remSearch remAccum
  rw [phase, count, remCheck_withHost]
  cases s.rphase
  case searching =>
    dsimp only
    split <;> rfl
  case accumulating =>
    dsimp only
    split <;> rfl

/-! ## Every instruction -/

theorem ignoresHost_deskAccum (b : Byte) : IgnoresHost (deskAccum b) :=
  ignoresHost_ite (fun _ _ => .rfl)
    (ignoresHost_ite (fun _ _ => .rfl) (ignoresHost_next fun _ _ => rfl)
      (ignoresHost_next fun hs s => deskFrame_withHost hs (deskAppend b s)))
    fun _ _ => rfl

theorem ignoresHost_deskByte (b : Byte) : IgnoresHost (deskByte b) := by
  refine ignoresHost_ite (fun _ _ => .rfl) (fun hs s => ?_) (ignoresHost_next fun _ _ => rfl)
  have phase : (withHost hs s).dphase = s.dphase := rfl
  rw [phase]
  cases s.dphase
  case searching => exact ignoresHost_next (deskSearch_withHost b) hs s
  case accumulating => exact ignoresHost_deskAccum b hs s

theorem ignoresHost_remByte (b : Byte) : IgnoresHost (remByte b) :=
  ignoresHost_ite (fun _ _ => .rfl) (ignoresHost_next fun hs s => by rw [bridge_withHost, remScan_withHost])
    (ignoresHost_next fun _ _ => rfl)

theorem ignoresHost_execStop : IgnoresHost execStop := ignoresHost_next fun _ _ => rfl

/-- A target that is reached stops the movement as `STOP` does; else one frame is sent (R172). -/
theorem ignoresHost_execCycle : IgnoresHost execCycle := by
  intro hs s
  have move : (withHost hs s).mvState = s.mvState := rfl
  unfold execCycle
  rw [move]
  cases s.mvState
  case idle => rfl
  case raising =>
    exact ignoresHost_ite (c := fun s => s.tgtPos ≤ s.curPos) (fun _ _ => .rfl) ignoresHost_execStop
      (ignoresHost_next (txFrame_withHost driveUp)) hs s
  case lowering =>
    exact ignoresHost_ite (c := fun s => s.curPos ≤ s.tgtPos) (fun _ _ => .rfl) ignoresHost_execStop
      (ignoresHost_next (txFrame_withHost driveDown)) hs s

theorem ignoresHost_execMoveTo (g : Tenths) : IgnoresHost (execMoveTo g) :=
  ignoresHost_ite (fun _ _ => .rfl) (ignoresHost_next fun _ _ => rfl) (ignoresHost_next fun _ _ => rfl)

theorem ignoresHost_forBytes {f : Byte → State → Result} (free : ∀ b, IgnoresHost (f b)) :
    ∀ bs, IgnoresHost (forBytes f bs)
  | [] => ignoresHost_next fun _ _ => rfl
  | b :: bs => fun hs s => by
    have first : f b (takeAll (withHost hs s)) = _ := free b hs (takeAll s)
    rw [forBytes_cons, forBytes_cons, first]
    cases f b (takeAll s) with
    | next u => exact ignoresHost_forBytes free bs hs u
    | fault => rfl
    | refused => rfl

theorem ignoresHost_exec (i : Instr) : IgnoresHost (exec i) := by
  rw [funext (exec_eq_run i)]
  cases meaning i
  case desk b => exact ignoresHost_deskByte b
  case remote b => exact ignoresHost_remByte b
  case cycle => exact ignoresHost_execCycle
  case moveTo g => exact ignoresHost_execMoveTo g
  case stop => exact ignoresHost_execStop
  case send p => exact ignoresHost_next (txFrame_withHost p)
  case illegal => exact ignoresHost_next fun _ _ => rfl
  case deskBytes bs => exact ignoresHost_forBytes ignoresHost_deskByte bs
  case remoteBytes bs => exact ignoresHost_forBytes ignoresHost_remByte bs

theorem exec_withHost {i : Instr} {s t : State} (h : exec i s = .next t) (hs : List HostInput) :
    exec i (withHost hs s) = .next (withHost hs t) := by
  rw [ignoresHost_exec i hs s, h, andThen_of_next]

/-! ## A run of the core through a script of offers -/

@[simp] theorem takeAll_takeOutput (s : State) : takeAll (takeOutput s) = takeAll s := by
  cases h : s.out with
  | nil => rw [takeOutput_nil h]
  | cons e es => simp [takeOutput_cons h, takeAll, h]

/-- While outputs are pending an offer waits, and each step takes one of them (R57). -/
theorem run_takes_pending {o : Offer} {rest : List HostInput} (k : Nat) :
    ∀ (out : List OutEvent) (s : State), s.out = out → s.host = .offer o :: rest →
      Sys2Proof.core.run (out.length + k) s = Sys2Proof.core.run k (takeAll s)
  | [], s, hout, _ => by rw [takeAll_of_out_nil hout, List.length_nil, Nat.zero_add]
  | e :: es, s, hout, hhost => by
    have waits : step s = .next (takeOutput s) := step_of_offer_pending hhost (by simp [hout])
    have hout' : (takeOutput s).out = es := by rw [takeOutput_cons hout]
    have hhost' : (takeOutput s).host = .offer o :: rest := by rw [takeOutput_cons hout, hhost]
    calc Sys2Proof.core.run ((e :: es).length + k) s
        = Sys2Proof.core.run (es.length + k + 1) s := by rw [List.length_cons, Nat.add_right_comm]
      _ = Sys2Proof.core.run (es.length + k) (takeOutput s) := run_of_step waits
      _ = Sys2Proof.core.run k (takeAll (takeOutput s)) := run_takes_pending k es _ hout' hhost'
      _ = Sys2Proof.core.run k (takeAll s) := by rw [takeAll_takeOutput]

/-- With its pending outputs taken first, an offered instruction runs in one more step. -/
theorem run_of_offer {s u : State} {i : Instr} (wf : i.wf = true) (hx : exec i (takeAll s) = .next u)
    (hs : List HostInput) (k : Nat) :
    Sys2Proof.core.run (s.out.length + (k + 1)) (withHost (.offer (encode i) :: hs) s) =
      Sys2Proof.core.run k (withHost hs u) := by
  have runs : step (takeAll (withHost (.offer (encode i) :: hs) s)) = .next (withHost hs u) :=
    calc step (takeAll (withHost (.offer (encode i) :: hs) s))
        = runOffer (encode i) (withHost hs (takeAll s)) := step_of_offer_ready rfl rfl
      _ = exec i (withHost hs (takeAll s)) := runOffer_of_decode (decode_encode wf) _
      _ = .next (withHost hs u) := exec_withHost hx hs
  exact (run_takes_pending (k + 1) s.out (withHost (.offer (encode i) :: hs) s) rfl rfl).trans (run_of_step runs)

/-- Settles O21, by induction on the instructions: the steps are those that take what is pending, the one that runs the first
instruction, and those of the rest. -/
theorem eventSequencesRunThroughTheChannel : Obligations.EventSequencesRunThroughTheChannel := by
  intro is
  induction is with
  | nil =>
    intro s t rest _ h
    cases h
    exact ⟨0, rfl⟩
  | cons i is ih =>
    intro s t rest wf h
    obtain ⟨wfi, wfis⟩ := List.forall_mem_cons.1 wf
    obtain ⟨u, hx, hu⟩ := andThen_next.1 h
    obtain ⟨k, hk⟩ := ih u t rest wfis hu
    exact ⟨s.out.length + (k + 1), (run_of_offer wfi hx _ k).trans hk⟩

end Sys2Proof.Machine
end

section
/-! Whatever decodes is well formed and re-encodes to what was offered, and the opcode map by match and mask (R71, R72, R76 to
R80; O1, O2, O3). With `decode_encode` the decoder and the encoder are inverse to each other, so a row's match and mask need only
be compared with its encoding. -/

namespace Sys2Proof

/-- Settles O1. -/
theorem decodeOfEncodeIsIdentity : Obligations.DecodeOfEncodeIsIdentity := fun _ => decode_encode

/-! ## A word and its two fields -/

theorem eventWord_fields (w : EventWord) : eventWord (opOf w) (opndOf w) = w := BitVec.extractLsb'_append_extractLsb'

theorem eq_eventWord_iff {w : EventWord} {op : BitVec 4} {o : Operand} :
    w = eventWord op o ↔ opOf w = op ∧ opndOf w = o := by
  refine ⟨?_, fun ⟨hop, ho⟩ => by rw [← hop, ← ho, eventWord_fields]⟩
  rintro rfl
  exact ⟨opOf_eventWord op o, opndOf_eventWord op o⟩

theorem operandB_eq_iff (o : Operand) : operandB (byteOf o) = o ↔ mbzOf o = 0 := by
  refine ⟨fun h => by rw [← h, mbzOf_operandB], fun h => ?_⟩
  calc operandB (byteOf o) = mbzOf o ++ byteOf o := by rw [h]; rfl
    _ = o := BitVec.extractLsb'_append_extractLsb'

theorem byteOf_opndOf (w : EventWord) : byteOf (opndOf w) = w.extractLsb' 0 8 :=
  BitVec.extractLsb'_extractLsb'_of_le (by decide)

/-! ## What decodes is well formed and re-encodes to the same bits -/

/-- `i` is well formed and `o` is its encoding. -/
def Encodes (i : Instr) (o : Offer) : Prop := i.wf = true ∧ encode i = o

theorem encodes_decodeB {op : BitVec 4} {event : Byte → Instr} (hop : formatB op = true)
    (row : ∀ b, Encodes (event b) (.event (eventWord op (operandB b)))) (o : Operand) :
    Encodes (decodeB op o event) (.event (eventWord op o)) := by
  by_cases hmbz : mbzOf o = 0
  · rw [decodeB, if_pos hmbz]
    simpa only [(operandB_eq_iff o).2 hmbz] using row (byteOf o)
  · rw [decodeB_of_mbz hmbz]
    exact ⟨by simpa [Instr.wf, hop, mbzOf] using .inl hmbz, rfl⟩

theorem encodes_decodeN {op : BitVec 4} {event : Instr} (hop : formatN op = true)
    (row : Encodes event (.event (eventWord op 0))) (o : Operand) :
    Encodes (decodeN op o event) (.event (eventWord op o)) := by
  by_cases hmbz : o = 0
  · rwa [decodeN, if_pos hmbz, hmbz]
  · rw [decodeN_of_mbz hmbz]
    exact ⟨by simpa [Instr.wf, hop] using .inr hmbz, rfl⟩

theorem op_cases (op : BitVec 4) :
    op = 0x0 ∨ op = 0x1 ∨ op = 0x2 ∨ op = 0x3 ∨ op = 0x4 ∨ op = 0x5 ∨ op = 0x6 ∨ op = 0x7 ∨ op = 0x8 ∨ op = 0x9 ∨ op = 0xA ∨
      op = 0xB ∨ op = 0xC ∨ op = 0xD ∨ op = 0xE ∨ op = 0xF := by
  decide +revert

/-- One case for each opcode, in order. -/
theorem encodes_decodeEvent_eventWord (op : BitVec 4) (o : Operand) :
    Encodes (decodeEvent (eventWord op o)) (.event (eventWord op o)) := by
  unfold decodeEvent
  rw [opOf_eventWord, opndOf_eventWord]
  obtain rfl | rfl | rfl | rfl | rfl | rfl | rfl | rfl | rfl | rfl | rfl | rfl | rfl | rfl | rfl | rfl := op_cases op
  · exact ⟨rfl, rfl⟩
  · exact encodes_decodeB rfl (fun _ => ⟨rfl, rfl⟩) o
  · exact encodes_decodeB rfl (fun _ => ⟨rfl, rfl⟩) o
  · exact encodes_decodeN rfl ⟨rfl, rfl⟩ o
  · exact ⟨rfl, rfl⟩
  · exact encodes_decodeN rfl ⟨rfl, rfl⟩ o
  · exact encodes_decodeN rfl ⟨rfl, rfl⟩ o
  · exact encodes_decodeN rfl ⟨rfl, rfl⟩ o
  · exact encodes_decodeN rfl ⟨rfl, rfl⟩ o
  · exact encodes_decodeB rfl (fun _ => ⟨rfl, rfl⟩) o
  all_goals exact ⟨rfl, rfl⟩

theorem encodes_decodeEvent (w : EventWord) : Encodes (decodeEvent w) (.event w) := by
  simpa only [eventWord_fields] using encodes_decodeEvent_eventWord (opOf w) (opndOf w)

/-- The command row of a payload, whichever of the six it is, has that payload's frame. -/
theorem encodes_commandOf (p : Byte) : Encodes (commandOf p) (.commandFrame (commandBytes p)) := by
  cases hp : namedPayload p
  case false =>
    rw [commandOf_of_not_namedPayload hp]
    exact ⟨by simp [Instr.wf, hp], rfl⟩
  case true =>
    simp only [namedPayload, Bool.or_eq_true, decide_eq_true_eq] at hp
    obtain (((rfl | rfl) | rfl) | rfl) | rfl := hp <;> exact ⟨rfl, rfl⟩

theorem encodes_of_decodeDeskFrame {bs : List Byte} {i : Instr} (h : decodeDeskFrame bs = .ok i) :
    Encodes i (.deskFrame bs) := by
  unfold decodeDeskFrame at h
  split at h
  case h_3 => cases h
  all_goals
    split at h <;> cases h
    subst_vars
    exact ⟨rfl, rfl⟩

theorem encodes_of_decodeRemoteFrame {bs : List Byte} {i : Instr} (h : decodeRemoteFrame bs = .ok i) :
    Encodes i (.remoteFrame bs) := by
  unfold decodeRemoteFrame at h
  split at h
  case h_2 => cases h
  case h_1 =>
    split at h <;> cases h
    subst_vars
    exact ⟨rfl, rfl⟩

theorem encodes_of_decodeCommandFrame {bs : List Byte} {i : Instr} (h : decodeCommandFrame bs = .ok i) :
    Encodes i (.commandFrame bs) := by
  unfold decodeCommandFrame at h
  split at h
  case h_2 => cases h
  case h_1 p _ _ =>
    split at h <;> cases h
    next hb =>
      obtain ⟨rfl, rfl, rfl, rfl⟩ := hb
      exact encodes_commandOf p

/-- Settles O2, one case for each kind of offer. -/
theorem encodeOfDecodeIsIdentity : Obligations.EncodeOfDecodeIsIdentity := by
  intro o i h
  cases o
  case event w =>
    cases h
    exact encodes_decodeEvent w
  case deskFrame bs => exact encodes_of_decodeDeskFrame h
  case remoteFrame bs => exact encodes_of_decodeRemoteFrame h
  case commandFrame bs => exact encodes_of_decodeCommandFrame h

theorem decode_eq_ok_iff {o : Offer} {i : Instr} : decode o = .ok i ↔ Encodes i o := by
  refine ⟨encodeOfDecodeIsIdentity o i, ?_⟩
  rintro ⟨wf, rfl⟩
  exact decode_encode wf

/-! ## The opcode map by match and mask -/

theorem decode_event_iff {i : Instr} {v : EventWord} (row : Encodes i (.event v)) (w : EventWord) :
    decode (.event w) = .ok i ↔ w = v := by
  obtain ⟨wf, enc⟩ := row
  rw [decode_eq_ok_iff, Encodes, enc, Offer.event.injEq]
  exact ⟨fun ⟨_, h⟩ => h.symm, fun h => ⟨wf, h.symm⟩⟩

theorem and_eventWord (w : EventWord) (p : BitVec 4) (a : Operand) :
    w &&& eventWord p a = eventWord (opOf w &&& p) (opndOf w &&& a) := by
  calc w &&& eventWord p a = eventWord (opOf w) (opndOf w) &&& eventWord p a := by rw [eventWord_fields]
    _ = eventWord (opOf w &&& p) (opndOf w &&& a) := BitVec.and_append

theorem and_allOnes_op (op : BitVec 4) : op &&& 0xF = op := BitVec.and_allOnes

theorem and_mbzMask_eq_zero_iff (o : Operand) : o &&& 0xFF00 = 0 ↔ mbzOf o = 0 := by
  have masked : o &&& 0xFF00 = mbzOf o ++ 0#8 := by
    calc o &&& 0xFF00 = (mbzOf o ++ byteOf o) &&& (0xFF#8 ++ 0#8) := by
          rw [show mbzOf o ++ byteOf o = o from BitVec.extractLsb'_append_extractLsb']; rfl
      _ = mbzOf o ++ 0#8 := by rw [BitVec.and_append, BitVec.and_zero]; exact congrArg (· ++ 0#8) BitVec.and_allOnes
  rw [masked]
  exact BitVec.append_left_inj (s₂ := 0#8) 0#8

/-- Mask 0xF0000: the operand is free. -/
theorem and_maskO_iff (w : EventWord) (op : BitVec 4) : w &&& 0xF0000 = eventWord op 0 ↔ opOf w = op := by
  have masked : w &&& 0xF0000 = eventWord (opOf w &&& 0xF) (opndOf w &&& 0) := and_eventWord w 0xF 0
  rw [masked, eq_eventWord_iff, opOf_eventWord, opndOf_eventWord, and_allOnes_op]
  exact and_iff_left BitVec.and_zero

/-- Mask 0xFFF00: format B. -/
theorem and_maskB_iff (w : EventWord) (op : BitVec 4) :
    w &&& 0xFFF00 = eventWord op 0 ↔ opOf w = op ∧ mbzOf (opndOf w) = 0 := by
  have masked : w &&& 0xFFF00 = eventWord (opOf w &&& 0xF) (opndOf w &&& 0xFF00) := and_eventWord w 0xF 0xFF00
  rw [masked, eq_eventWord_iff, opOf_eventWord, opndOf_eventWord, and_allOnes_op, and_mbzMask_eq_zero_iff]

/-- Mask 0xFFFFF: format N. -/
theorem and_maskN_iff (w : EventWord) (op : BitVec 4) :
    w &&& 0xFFFFF = eventWord op 0 ↔ opOf w = op ∧ opndOf w = 0 := by
  have masked : w &&& 0xFFFFF = w := BitVec.and_allOnes
  rw [masked, eq_eventWord_iff]

theorem maskO_iff_decode (w : EventWord) (op : BitVec 4) {event : Operand → Instr}
    (row : ∀ o, Encodes (event o) (.event (eventWord op o))) :
    w &&& 0xF0000 = eventWord op 0 ↔ decode (.event w) = .ok (event (w.extractLsb' 0 16)) := by
  rw [and_maskO_iff, decode_event_iff (row _), eq_eventWord_iff]
  exact (and_iff_left rfl).symm

theorem maskB_iff_decode (w : EventWord) (op : BitVec 4) {event : Byte → Instr}
    (row : ∀ b, Encodes (event b) (.event (eventWord op (operandB b)))) :
    w &&& 0xFFF00 = eventWord op 0 ↔ decode (.event w) = .ok (event (w.extractLsb' 0 8)) := by
  rw [and_maskB_iff, decode_event_iff (row _), eq_eventWord_iff, ← byteOf_opndOf, eq_comm (a := opndOf w), operandB_eq_iff]

theorem maskN_iff_decode (w : EventWord) (op : BitVec 4) {event : Instr}
    (row : Encodes event (.event (eventWord op 0))) :
    w &&& 0xFFFFF = eventWord op 0 ↔ decode (.event w) = .ok event := by
  rw [and_maskN_iff, decode_event_iff row, eq_eventWord_iff]

theorem illegalNonzeroMbz_wf_iff (op : BitVec 4) (o : Operand) :
    (Instr.illegalNonzeroMbz op o).wf = true ↔ formatB op = true ∧ mbzOf o ≠ 0 ∨ formatN op = true ∧ o ≠ 0 := by
  simp [Instr.wf, mbzOf]

/-- Every opcode is reserved, that of `MOVE_TO`, or of format B or N; so a word that fits no row has format B or N and
must-be-0 bits that are not 0. -/
theorem no_row_iff_wf (w : EventWord) :
    (w &&& 0xFFF00 ≠ eventWord 0x1 0 ∧ w &&& 0xFFF00 ≠ eventWord 0x2 0 ∧ w &&& 0xFFFFF ≠ eventWord 0x3 0 ∧
      w &&& 0xF0000 ≠ eventWord 0x4 0 ∧ w &&& 0xFFFFF ≠ eventWord 0x5 0 ∧ w &&& 0xFFFFF ≠ eventWord 0x6 0 ∧
      w &&& 0xFFFFF ≠ eventWord 0x7 0 ∧ w &&& 0xFFFFF ≠ eventWord 0x8 0 ∧ w &&& 0xFFF00 ≠ eventWord 0x9 0 ∧
      w &&& 0xF0000 ≠ eventWord 0x0 0 ∧ w &&& 0xF0000 ≠ eventWord 0xA 0 ∧ w &&& 0xF0000 ≠ eventWord 0xB 0 ∧
      w &&& 0xF0000 ≠ eventWord 0xC 0 ∧ w &&& 0xF0000 ≠ eventWord 0xD 0 ∧ w &&& 0xF0000 ≠ eventWord 0xE 0 ∧
      w &&& 0xF0000 ≠ eventWord 0xF 0) ↔
      (Instr.illegalNonzeroMbz (opOf w) (opndOf w)).wf = true := by
  simp only [ne_eq, and_maskB_iff, and_maskN_iff, and_maskO_iff, illegalNonzeroMbz_wf_iff]
  obtain h | h | h | h | h | h | h | h | h | h | h | h | h | h | h | h := op_cases (opOf w)
  all_goals simp [h, formatB, formatN]

/-- Settles O3: a row's match under its mask is its encoding; what fits no row is `ILLEGAL_NONZERO_MBZ`. -/
theorem opcodeMapByMatchAndMask : Obligations.OpcodeMapByMatchAndMask := by
  intro w
  refine ⟨maskB_iff_decode w 0x1 fun _ => ⟨rfl, rfl⟩, maskB_iff_decode w 0x2 fun _ => ⟨rfl, rfl⟩,
    maskN_iff_decode w 0x3 ⟨rfl, rfl⟩, maskO_iff_decode w 0x4 fun _ => ⟨rfl, rfl⟩, maskN_iff_decode w 0x5 ⟨rfl, rfl⟩,
    maskN_iff_decode w 0x6 ⟨rfl, rfl⟩, maskN_iff_decode w 0x7 ⟨rfl, rfl⟩, maskN_iff_decode w 0x8 ⟨rfl, rfl⟩,
    maskB_iff_decode w 0x9 fun _ => ⟨rfl, rfl⟩, maskO_iff_decode w 0x0 fun _ => ⟨rfl, rfl⟩,
    maskO_iff_decode w 0xA fun _ => ⟨rfl, rfl⟩, maskO_iff_decode w 0xB fun _ => ⟨rfl, rfl⟩,
    maskO_iff_decode w 0xC fun _ => ⟨rfl, rfl⟩, maskO_iff_decode w 0xD fun _ => ⟨rfl, rfl⟩,
    maskO_iff_decode w 0xE fun _ => ⟨rfl, rfl⟩, maskO_iff_decode w 0xF fun _ => ⟨rfl, rfl⟩, ?illegal⟩
  case illegal =>
    have illegal : decode (.event w) = .ok (.illegalNonzeroMbz (opOf w) (opndOf w)) ↔
        (Instr.illegalNonzeroMbz (opOf w) (opndOf w)).wf = true := by
      rw [decode_eq_ok_iff]
      exact and_iff_left (congrArg Offer.event (eventWord_fields w))
    exact (no_row_iff_wf w).trans illegal.symm

end Sys2Proof
end

section
/-! Written-out words and lines, the command frames, and the illegal words (R72, R73, R80, R86, R87, R150 to R154; O4, O5, O36, O39,
O46). -/

namespace Sys2Proof.Machine

/-- Settles O4, each word by running the decoder. -/
theorem sampleWordsDecodeToTheirRows : Obligations.SampleWordsDecodeToTheirRows :=
  ⟨rfl, rfl, rfl, rfl, rfl, rfl, rfl, rfl, rfl, rfl, rfl, rfl, rfl⟩

/-- Settles O5, each line by running the assembler. -/
theorem assemblerLinesGiveTheirWords : Obligations.AssemblerLinesGiveTheirWords :=
  ⟨rfl, rfl, rfl, rfl, rfl, rfl, rfl, rfl⟩

/-! ## Command frames -/

theorem sub_eq_not (p : Byte) : 0xFF - p = ~~~p := BitVec.allOnes_sub_eq_not p

/-- Settles O36. -/
theorem encBuildsTheCommandFrame : Obligations.EncBuildsTheCommandFrame := by
  intro p
  refine ⟨?_, BitVec.toNat_not⟩
  rw [enc, sub_eq_not]

/-- A row that sends the frame of `p` does what R11 says of `TxFrame(p)`, whatever the row. -/
theorem exec_of_meaning_send {i : Instr} {p : Byte} (hm : meaning i = .send p) (s : State) :
    exec i s = .next { s with
      out := s.out ++ if s.cfg.deskPresent = true then [.tx 0xA5, .tx 0x00, .tx p, .tx (0xFF - p), .tx 0xFF] else [] } := by
  rw [exec_eq_run, hm, Meaning.run, txFrame_eq, frameEvents_eq]
  rfl

/-- Settles O39: the six rows are of one meaning, with their payloads. -/
theorem commandFrameRowsSendTheirFrames : Obligations.CommandFrameRowsSendTheirFrames := fun s =>
  ⟨exec_of_meaning_send rfl s, exec_of_meaning_send rfl s, exec_of_meaning_send rfl s, exec_of_meaning_send rfl s,
    exec_of_meaning_send rfl s, fun _ => exec_of_meaning_send rfl s⟩

/-! ## Illegal event words -/

theorem exec_of_meaning_illegal {i : Instr} (hm : meaning i = .illegal) (s : State) :
    exec i s = .next { s with ill := true, out := s.out ++ [.diag 3] } := by
  rw [exec_eq_run, hm]
  rfl

theorem formatB_iff (op : BitVec 4) : formatB op = true ↔ op.toNat = 0x1 ∨ op.toNat = 0x2 ∨ op.toNat = 0x9 := by
  decide +revert

theorem formatN_iff (op : BitVec 4) :
    formatN op = true ↔ op.toNat = 0x3 ∨ op.toNat = 0x5 ∨ op.toNat = 0x6 ∨ op.toNat = 0x7 ∨ op.toNat = 0x8 := by
  decide +revert

theorem reserved_iff (op : BitVec 4) :
    op.toNat = 0 ∨ 0xA ≤ op.toNat ↔
      op = 0x0 ∨ op = 0xA ∨ op = 0xB ∨ op = 0xC ∨ op = 0xD ∨ op = 0xE ∨ op = 0xF := by
  decide +revert

theorem meaning_decodeEvent_of_reserved {w : EventWord} (hop : (opOf w).toNat = 0 ∨ 0xA ≤ (opOf w).toNat) :
    meaning (decodeEvent w) = .illegal := by
  unfold decodeEvent
  obtain h | h | h | h | h | h | h := (reserved_iff (opOf w)).1 hop <;> rw [h] <;> rfl

theorem meaning_decodeEvent_of_nonzeroMbz {w : EventWord}
    (hmbz : formatB (opOf w) = true ∧ mbzOf (opndOf w) ≠ 0 ∨ formatN (opOf w) = true ∧ opndOf w ≠ 0) :
    meaning (decodeEvent w) = .illegal := by
  rw [← eventWord_fields w, decodeEvent_of_nonzeroMbz ((illegalNonzeroMbz_wf_iff _ _).2 hmbz)]
  rfl

theorem mbzOf_opndOf (w : EventWord) : mbzOf (opndOf w) = w.extractLsb' 8 8 :=
  BitVec.extractLsb'_extractLsb'_of_le (by decide)

/-- Settles O46. -/
theorem illegalWordsSetIllAndReport : Obligations.IllegalWordsSetIllAndReport := by
  intro s
  refine ⟨fun i hi => exec_of_meaning_illegal ?row s, fun w hw => ?word⟩
  case row => obtain ⟨_, rfl | rfl | rfl | rfl | rfl | rfl | rfl | ⟨_, rfl⟩⟩ := hi <;> rfl
  case word =>
    have illegal : meaning (decodeEvent w) = .illegal := by
      obtain h0 | hA | ⟨hop, hmbz⟩ | ⟨hop, hmbz⟩ := hw
      · exact meaning_decodeEvent_of_reserved (.inl h0)
      · exact meaning_decodeEvent_of_reserved (.inr hA)
      · exact meaning_decodeEvent_of_nonzeroMbz (.inl ⟨(formatB_iff _).2 hop, by rwa [mbzOf_opndOf]⟩)
      · exact meaning_decodeEvent_of_nonzeroMbz (.inr ⟨(formatN_iff _).2 hop, hmbz⟩)
    rw [runOffer_of_decode (i := decodeEvent w) rfl]
    exact exec_of_meaning_illegal illegal s

end Sys2Proof.Machine
end

section
/-! Whole desk frames (R77, R78, R81, R87, R110 to R115; O16, O17, O18, O20, O27): what a desk byte does in each phase, what the
byte that completes a frame comes to, and then the frames byte by byte. -/

namespace Sys2Proof.Machine

/-! ## A received frame is its byte events -/

theorem runEvents_map_eq_forBytes {event : Byte → Instr} {f : Byte → State → Result} (row : ∀ b s, exec (event b) s = f b s)
    (bs : List Byte) (s : State) : runEvents (bs.map event) s = forBytes f bs s := by
  induction bs generalizing s with
  | nil => rfl
  | cons b bs ih => rw [List.map_cons, runEvents_cons, forBytes_cons, row, funext ih]

theorem runEvents_deskf (bs : List Byte) (s : State) : runEvents (deskf bs) s = forBytes deskByte (deskStart :: bs) s :=
  runEvents_map_eq_forBytes (fun _ _ => rfl) _ s

theorem runEvents_remf (bs : List Byte) (s : State) : runEvents (remf bs) s = forBytes remByte (remoteStart :: bs) s :=
  runEvents_map_eq_forBytes (fun _ _ => rfl) _ s

/-- Settles O20. -/
theorem receivedFramesAreTheirByteEvents : Obligations.ReceivedFramesAreTheirByteEvents := fun s =>
  ⟨fun _ _ _ _ _ => (runEvents_deskf _ s).symm, fun _ _ _ _ => (runEvents_deskf _ s).symm,
    fun _ _ _ _ => (runEvents_remf _ s).symm⟩

/-! ## A desk byte in each phase -/

theorem deskByte_of_searching {s : State} (hd : s.cfg.deskPresent = true) (hp : s.dphase = .searching) (b : Byte) :
    deskByte b s = .next (deskSearch b s) := by
  rw [deskByte, if_pos hd, hp]

/-- `s` with the desk scanner in mid-frame: `n` bytes in the buffer `buf`. -/
def deskHolding (n : BitVec 3) (buf : Vector Byte 5) (s : State) : State :=
  { s with dphase := .accumulating, dcnt := n, dbuf := buf }

theorem deskByte_start {s : State} (hd : s.cfg.deskPresent = true) (hp : s.dphase = .searching) :
    deskByte deskStart s = .next (deskHolding 0 s.dbuf s) :=
  deskByte_of_searching hd hp deskStart

theorem msgLenNat_le (n : MsgLen) : 5 ≤ msgLenNat n ∧ msgLenNat n ≤ 6 := by
  cases n <;> decide

theorem deskByte_store {n : BitVec 3} {buf : Vector Byte 5} {s : State} (hd : s.cfg.deskPresent = true)
    (room : n.toNat + 1 < msgLenNat s.cfg.msgLen - 1) (b : Byte) :
    deskByte b (deskHolding n buf s) = .next (deskHolding (n + 1) (buf.setIfInBounds n.toNat b) s) := by
  have hlt : n.toNat < 5 := by have := (msgLenNat_le s.cfg.msgLen).2; omega
  show (if s.cfg.deskPresent = true then deskAccum b (deskHolding n buf s) else _) = _
  rw [if_pos hd]
  exact (if_pos hlt).trans (if_pos room)

theorem forBytes_desk_store {n : BitVec 3} {buf : Vector Byte 5} {s : State} (hd : s.cfg.deskPresent = true)
    (hout : s.out = []) (room : n.toNat + 1 < msgLenNat s.cfg.msgLen - 1) (b : Byte) (bs : List Byte) :
    forBytes deskByte (b :: bs) (deskHolding n buf s) =
      forBytes deskByte bs (deskHolding (n + 1) (buf.setIfInBounds n.toNat b) s) := by
  have ready : takeAll (deskHolding n buf s) = deskHolding n buf s := takeAll_of_out_nil hout
  rw [forBytes_cons, ready, deskByte_store hd room, andThen_of_next]

theorem setIfInBounds_digits (v : Vector Byte 5) (h t u : Byte) :
    ((v.setIfInBounds 0 h).setIfInBounds 1 t).setIfInBounds 2 u = #v[h, t, u, v[3], v[4]] := by
  rw [desk_buffer_eta v]
  rfl

/-- At either length there is room for three bytes after the start byte. -/
theorem forBytes_desk_digits {s : State} (hd : s.cfg.deskPresent = true) (hp : s.dphase = .searching) (h t u : Byte)
    (bs : List Byte) :
    forBytes deskByte (deskStart :: h :: t :: u :: bs) s =
      forBytes deskByte bs (deskHolding 3 #v[h, t, u, s.dbuf[3], s.dbuf[4]] (takeAll s)) := by
  have room : ∀ n : BitVec 3, n.toNat ≤ 2 → n.toNat + 1 < msgLenNat (takeAll s).cfg.msgLen - 1 := fun n hn => by
    have := (msgLenNat_le (takeAll s).cfg.msgLen).1
    omega
  rw [forBytes_cons, deskByte_start (s := takeAll s) hd hp, andThen_of_next,
    forBytes_desk_store (s := takeAll s) hd rfl (room 0 (by decide)),
    forBytes_desk_store (s := takeAll s) hd rfl (room _ (by decide)),
    forBytes_desk_store (s := takeAll s) hd rfl (room _ (by decide))]
  exact congrArg (fun buf => forBytes deskByte bs (deskHolding 3 buf (takeAll s))) (setIfInBounds_digits s.dbuf h t u)

/-! ## The digits of a reading -/

/-- Under a legal table only one digit has the pattern, so the lookup finds it (R8, R102). -/
theorem segdec_of_pattern {tbl : SegTable} (legal : tbl.legal = true) {b : Byte} {d : Digit}
    (hd : tbl[d] = b.extractLsb' 0 7) : segdec tbl b = some d := by
  cases hs : segdec tbl b with
  | none => exact absurd hd (by simpa [segPattern] using List.find?_eq_none.1 hs d (List.mem_finRange d))
  | some e => rw [legal_injective legal ((segdec_pattern hs).trans hd.symm)]

theorem segReading_of_digits {tbl : SegTable} (legal : tbl.legal = true) {h t u : Byte} {d0 d1 d2 : Digit} {r : Tenths}
    (h0 : tbl[d0] = h.extractLsb' 0 7) (h1 : tbl[d1] = t.extractLsb' 0 7) (h2 : tbl[d2] = u.extractLsb' 0 7)
    (hr : r.toNat = (100 * d0.val + 10 * d1.val + d2.val) * (if t.getLsbD 7 then 1 else 10)) :
    segReading tbl h t u = some r := by
  have reading : tenths (decimalPoint t) (rawReading d0 d1 d2) = r :=
    BitVec.eq_of_toNat_eq ((tenths_toNat _ _ _ _).trans hr.symm)
  rw [segReading, segdec_of_pattern legal h0, segdec_of_pattern legal h1, segdec_of_pattern legal h2, ← reading]

/-! ## The byte that completes a frame -/

/-- The desk scanner waits for the last byte of a frame. -/
structure AwaitsChecksum (s : State) : Prop where
  present : s.cfg.deskPresent = true
  phase : s.dphase = .accumulating
  count : s.dcnt.toNat + 1 = msgLenNat s.cfg.msgLen - 1

/-- `c` is the checksum of the frame in `buf` (R113). -/
def FrameSums (n : MsgLen) (buf : Vector Byte 5) (c : Byte) : Prop :=
  match n with
  | .five => sumsTo [buf[0], buf[1], buf[2]] c
  | .six => sumsTo [buf[0], buf[1], buf[2], buf[3]] c

theorem deskByte_of_awaitsChecksum {s : State} (await : AwaitsChecksum s) (c : Byte) :
    deskByte c s = .next (deskFrame (deskAppend c s)) := by
  have hlen := (msgLenNat_le s.cfg.msgLen).2
  have hcount := await.count
  rw [deskByte, if_pos await.present, await.phase]
  exact (if_pos (by omega)).trans (if_neg (by omega))

/-- The buffer with its checksum byte (R113). -/
theorem dbuf_deskAppend_of_awaitsChecksum {s : State} (await : AwaitsChecksum s) (c : Byte) :
    (s.cfg.msgLen = .five → (deskAppend c s).dbuf = #v[s.dbuf[0], s.dbuf[1], s.dbuf[2], c, s.dbuf[4]]) ∧
      (s.cfg.msgLen = .six → (deskAppend c s).dbuf = #v[s.dbuf[0], s.dbuf[1], s.dbuf[2], s.dbuf[3], c]) := by
  have hcount := await.count
  rw [deskAppend_dbuf]
  refine ⟨fun hn => ?five, fun hn => ?six⟩ <;> rw [hn] at hcount
  case five =>
    rw [show s.dcnt.toNat = 3 from Nat.succ.inj hcount, desk_buffer_eta s.dbuf]
    rfl
  case six =>
    rw [show s.dcnt.toNat = 4 from Nat.succ.inj hcount, desk_buffer_eta s.dbuf]
    rfl

theorem deskSum_eq_deskCheckByte_iff {s : State} (await : AwaitsChecksum s) (c : Byte) :
    deskSum (deskAppend c s) = deskCheckByte (deskAppend c s) ↔ FrameSums s.cfg.msgLen s.dbuf c := by
  obtain ⟨five, six⟩ := dbuf_deskAppend_of_awaitsChecksum await c
  unfold deskSum deskCheckByte FrameSums
  rw [deskAppend_cfg]
  cases hn : s.cfg.msgLen
  case five => rw [five hn]; exact checksum_eq_iff _ _
  case six => rw [six hn]; exact checksum_eq_iff _ _

/-- The checksum byte is no part of the reading. -/
theorem deskReading_deskAppend {s : State} (await : AwaitsChecksum s) (c : Byte) :
    deskReading (deskAppend c s) = deskReading s := by
  obtain ⟨five, six⟩ := dbuf_deskAppend_of_awaitsChecksum await c
  unfold deskReading
  rw [deskAppend_cfg]
  cases hn : s.cfg.msgLen
  case five =>
    rw [five hn]
    simp only [reduceCtorEq, false_and, if_false]
    rfl
  case six => rw [six hn]; rfl

theorem deskReading_of_valid {s : State} {c : Byte} {r : Tenths} (legal : s.cfg.segTable.legal = true)
    (valid : ValidDeskFrame s.cfg.msgLen s.cfg.segTable s.dbuf c r) : deskReading s = some r := by
  obtain ⟨_, type, lit, d0, d1, d2, h0, h1, h2, hr⟩ := valid
  have typed : ¬(s.cfg.msgLen = .six ∧ s.dbuf[3] ≠ deskType) := fun ⟨hn, hne⟩ => hne (type hn)
  rw [deskReading, if_neg typed, if_neg lit]
  exact segReading_of_digits legal h0 h1 h2 hr

/-- This direction needs no legal table: whatever digits the lookup finds have the patterns. -/
theorem valid_of_deskReading {s : State} {c : Byte} {r : Tenths} (sum : FrameSums s.cfg.msgLen s.dbuf c)
    (hr : deskReading s = some r) : ValidDeskFrame s.cfg.msgLen s.cfg.segTable s.dbuf c r := by
  unfold deskReading at hr
  split_ifs at hr with typed lit
  refine ⟨sum, fun hn => ?_, lit, segReading_digits hr⟩
  by_contra hne
  exact typed ⟨hn, hne⟩

theorem deskByte_of_badSum {s : State} (await : AwaitsChecksum s) {c : Byte}
    (bad : ¬FrameSums s.cfg.msgLen s.dbuf c) : deskByte c s = .next (emitAll [.diag 1] (deskResync s)) := by
  have hne := mt (deskSum_eq_deskCheckByte_iff await c).1 bad
  rw [deskByte_of_awaitsChecksum await, deskFrame, if_pos hne]
  rfl

theorem deskByte_of_valid {s : State} (await : AwaitsChecksum s) {c : Byte} {r : Tenths}
    (legal : s.cfg.segTable.legal = true) (valid : ValidDeskFrame s.cfg.msgLen s.cfg.segTable s.dbuf c r) :
    deskByte c s = .next (acceptReading r (deskResync s)) := by
  have hsum := (deskSum_eq_deskCheckByte_iff await c).2 valid.sum
  have hr : deskReading (deskAppend c s) = some r := by
    rw [deskReading_deskAppend await, deskReading_of_valid legal valid]
  rw [deskByte_of_awaitsChecksum await, deskFrame, if_neg (not_not.2 hsum), deskInterpret, hr]
  simp only [acceptReading_eq]
  rfl

theorem deskByte_of_noReading {s : State} (await : AwaitsChecksum s) {c : Byte} (sum : FrameSums s.cfg.msgLen s.dbuf c)
    (no : ∀ r, ¬ValidDeskFrame s.cfg.msgLen s.cfg.segTable s.dbuf c r) : deskByte c s = .next (deskResync s) := by
  have hsum := (deskSum_eq_deskCheckByte_iff await c).2 sum
  have hr : deskReading (deskAppend c s) = none := by
    rw [deskReading_deskAppend await, Option.eq_none_iff_forall_ne_some]
    exact fun r hr => no r (valid_of_deskReading sum hr)
  rw [deskByte_of_awaitsChecksum await, deskFrame, if_neg (not_not.2 hsum), deskInterpret, hr]
  rfl

/-! ## Whole frames -/

/-- `s` after a frame that came to nothing: what was pending is taken, the buffer is cleared. -/
def afterDeskFrame (s : State) : State :=
  { s with dcnt := 0, dbuf := #v[0, 0, 0, 0, 0], taken := s.taken ++ s.out, out := [] }

theorem deskResync_deskHolding {s : State} (hp : s.dphase = .searching) (n : BitVec 3) (buf : Vector Byte 5) :
    deskResync (deskHolding n buf (takeAll s)) = afterDeskFrame s := by
  rw [afterDeskFrame]
  unfold deskResync
  rw [← hp]
  rfl

/-- What becomes of a frame of the scanner's own length `n`: the bytes `buf`, then the checksum byte `c` (R113 to R115). -/
structure DeskFrameOutcomes (n : MsgLen) (buf : Vector Byte 5) (c : Byte) (s : State) (result : Result) : Prop where
  badSum : ¬FrameSums n buf c → result = .next { afterDeskFrame s with out := [.diag 1] }
  valid : s.cfg.segTable.legal = true → ∀ r, ValidDeskFrame n s.cfg.segTable buf c r →
    result = .next { afterDeskFrame s with
      curPos := r, posKnown := true, out := if s.posKnown = false ∨ r ≠ s.curPos then [.heightPub r] else [] }
  noReading : FrameSums n buf c → (∀ r, ¬ValidDeskFrame n s.cfg.segTable buf c r) → result = .next (afterDeskFrame s)

theorem deskFrameOutcomes_deskHolding {s : State} (hd : s.cfg.deskPresent = true) (hp : s.dphase = .searching)
    {n : MsgLen} (hn : s.cfg.msgLen = n) {k : BitVec 3} (hk : k.toNat + 1 = msgLenNat n - 1) (buf : Vector Byte 5)
    (c : Byte) : DeskFrameOutcomes n buf c s (deskByte c (deskHolding k buf (takeAll s))) := by
  subst hn
  have await : AwaitsChecksum (deskHolding k buf (takeAll s)) := ⟨hd, rfl, hk⟩
  have resynced := deskResync_deskHolding hp k buf
  refine ⟨fun bad => ?badSum, fun legal r valid => ?valid, fun sum no => ?noReading⟩
  case badSum => rw [deskByte_of_badSum await bad, resynced]; rfl
  case valid => rw [deskByte_of_valid await legal valid, resynced, acceptReading_eq]; rfl
  case noReading => rw [deskByte_of_noReading await sum no, resynced]

theorem forBytes_singleton (f : Byte → State → Result) (b : Byte) (s : State) : forBytes f [b] s = f b (takeAll s) := by
  rw [forBytes_cons]
  cases f b (takeAll s) <;> rfl

theorem forBytes_desk_last (b : Byte) (n : BitVec 3) (buf : Vector Byte 5) (s : State) :
    forBytes deskByte [b] (deskHolding n buf (takeAll s)) = deskByte b (deskHolding n buf (takeAll s)) := by
  rw [forBytes_singleton, takeAll_of_out_nil rfl]

/-! ### Length 6 -/

/-- At length 6 the last register is not read before the checksum byte stands there. -/
theorem validDeskFrame_six_iff {tbl : SegTable} {h t u y c : Byte} {r : Tenths} (e e' : Byte) :
    ValidDeskFrame .six tbl #v[h, t, u, y, e] c r ↔ ValidDeskFrame .six tbl #v[h, t, u, y, e'] c r :=
  ⟨fun v => ⟨v.sum, v.type, v.lit, v.digits⟩, fun v => ⟨v.sum, v.type, v.lit, v.digits⟩⟩

/-- The four bytes before the checksum byte of a length-6 frame. -/
theorem forBytes_desk_type {s : State} (hd : s.cfg.deskPresent = true) (hn : s.cfg.msgLen = .six)
    (hp : s.dphase = .searching) (h t u y : Byte) (bs : List Byte) :
    forBytes deskByte (deskStart :: h :: t :: u :: y :: bs) s =
      forBytes deskByte bs (deskHolding 4 #v[h, t, u, y, s.dbuf[4]] (takeAll s)) := by
  rw [forBytes_desk_digits hd hp]
  exact forBytes_desk_store (s := takeAll s) hd rfl (by simp [hn, msgLenNat]) y bs

theorem deskStatus6_outcomes {s : State} (hd : s.cfg.deskPresent = true) (hn : s.cfg.msgLen = .six)
    (hp : s.dphase = .searching) (h t u y c : Byte) :
    DeskFrameOutcomes .six #v[h, t, u, y, 0] c s (exec (.deskStatus6 h t u y c) s) := by
  have frame : exec (.deskStatus6 h t u y c) s = deskByte c (deskHolding 4 #v[h, t, u, y, s.dbuf[4]] (takeAll s)) :=
    (forBytes_desk_type hd hn hp h t u y [c]).trans (forBytes_desk_last c _ _ s)
  obtain ⟨badSum, valid, noReading⟩ := deskFrameOutcomes_deskHolding hd hp hn (k := 4) rfl #v[h, t, u, y, s.dbuf[4]] c
  rw [frame]
  exact ⟨badSum, fun legal r v => valid legal r ((validDeskFrame_six_iff _ _).1 v),
    fun sum no => noReading sum fun r v => no r ((validDeskFrame_six_iff _ _).1 v)⟩

/-- Settles O16. -/
theorem deskFrameOfLengthSix : Obligations.DeskFrameOfLengthSix := by
  intro h t u y c s hd hn hp legal
  obtain ⟨badSum, valid, noReading⟩ := deskStatus6_outcomes hd hn hp h t u y c
  exact ⟨badSum, valid legal, noReading⟩

/-! ### Length 5 -/

/-- At length 5 the last two registers are not read before the checksum byte stands in one of them. -/
theorem validDeskFrame_five_iff {tbl : SegTable} {h t u c : Byte} {r : Tenths} (y e y' e' : Byte) :
    ValidDeskFrame .five tbl #v[h, t, u, y, e] c r ↔ ValidDeskFrame .five tbl #v[h, t, u, y', e'] c r :=
  ⟨fun v => ⟨v.sum, nofun, v.lit, v.digits⟩, fun v => ⟨v.sum, nofun, v.lit, v.digits⟩⟩

theorem deskFrameOutcomes_five {s : State} (hd : s.cfg.deskPresent = true) (hn : s.cfg.msgLen = .five)
    (hp : s.dphase = .searching) (h t u c : Byte) :
    DeskFrameOutcomes .five #v[h, t, u, 0, 0] c s
      (deskByte c (deskHolding 3 #v[h, t, u, s.dbuf[3], s.dbuf[4]] (takeAll s))) := by
  obtain ⟨badSum, valid, noReading⟩ :=
    deskFrameOutcomes_deskHolding hd hp hn (k := 3) rfl #v[h, t, u, s.dbuf[3], s.dbuf[4]] c
  exact ⟨badSum, fun legal r v => valid legal r ((validDeskFrame_five_iff _ _ _ _).1 v),
    fun sum no => noReading sum fun r v => no r ((validDeskFrame_five_iff _ _ _ _).1 v)⟩

theorem deskStatus5_outcomes {s : State} (hd : s.cfg.deskPresent = true) (hn : s.cfg.msgLen = .five)
    (hp : s.dphase = .searching) (h t u c : Byte) :
    DeskFrameOutcomes .five #v[h, t, u, 0, 0] c s (exec (.deskStatus5 h t u c) s) := by
  have frame : exec (.deskStatus5 h t u c) s =
      deskByte c (deskHolding 3 #v[h, t, u, s.dbuf[3], s.dbuf[4]] (takeAll s)) :=
    (forBytes_desk_digits hd hp h t u [c]).trans (forBytes_desk_last c _ _ s)
  rw [frame]
  exact deskFrameOutcomes_five hd hn hp h t u c

/-- Settles O17. -/
theorem deskFrameOfLengthFive : Obligations.DeskFrameOfLengthFive := by
  intro h t u c s hd hn hp legal
  obtain ⟨badSum, valid, noReading⟩ := deskStatus5_outcomes hd hn hp h t u c
  exact ⟨badSum, valid legal, noReading⟩

/-! ### The other length -/

/-- A byte after a frame: only the phase can change, for the count is 0 already (R111). -/
theorem deskByte_after_frame {s : State} (hd : s.cfg.deskPresent = true) (hp : s.dphase = .searching) (hc : s.dcnt = 0)
    (b : Byte) : deskByte b s = .next { s with dphase := if b = 0x5A then .accumulating else .searching } := by
  rw [deskByte_of_searching hd hp, deskSearch]
  split
  · rw [← hc]
  · rw [← hp]

/-- The fifth byte ends a frame of length 5 in `v`, and the sixth is looked at when what that emitted has been taken. -/
theorem exec_deskStatus6_of_five {s v : State} (hd : s.cfg.deskPresent = true) (hp : s.dphase = .searching)
    {h t u y : Byte} (fifth : deskByte y (deskHolding 3 #v[h, t, u, s.dbuf[3], s.dbuf[4]] (takeAll s)) = .next v)
    (hvd : v.cfg.deskPresent = true) (hvp : v.dphase = .searching) (hvc : v.dcnt = 0) (c : Byte) :
    exec (.deskStatus6 h t u y c) s =
      .next { takeAll v with dphase := if c = 0x5A then .accumulating else .searching } := by
  calc exec (.deskStatus6 h t u y c) s
      = forBytes deskByte [y, c] (deskHolding 3 #v[h, t, u, s.dbuf[3], s.dbuf[4]] (takeAll s)) :=
        forBytes_desk_digits hd hp h t u [y, c]
    _ = deskByte c (takeAll v) := by
        rw [forBytes_cons, takeAll_of_out_nil rfl, fifth, andThen_of_next, forBytes_singleton]
    _ = .next { takeAll v with dphase := if c = 0x5A then .accumulating else .searching } :=
        deskByte_after_frame (s := takeAll v) hvd hvp hvc c

/-- Settles O18. -/
theorem deskFrameOfTheOtherLength : Obligations.DeskFrameOfTheOtherLength := by
  intro h t u y c s hd hp
  refine ⟨fun hn => ?short, fun hn => ?long⟩
  case short => exact forBytes_desk_type hd hn hp h t u y []
  case long =>
    obtain ⟨badSum, valid, noReading⟩ := deskFrameOutcomes_five hd hn hp h t u y
    refine ⟨fun bad => ?badSum, fun r legal v => ?valid, fun sum no => ?noReading⟩
    case badSum => exact exec_deskStatus6_of_five hd hp (badSum bad) hd hp rfl c
    case valid => exact exec_deskStatus6_of_five hd hp (valid legal r v) hd hp rfl c
    case noReading =>
      rw [exec_deskStatus6_of_five hd hp (noReading sum no) hd hp rfl c, takeAll_of_out_nil rfl]
      rfl

/-! ### The frame that `DESKV` makes -/

/-- Settles O27: at either length the frame is valid with the reading of the three digits. -/
theorem deskvSendsAnAcceptedFrame : Obligations.DeskvSendsAnAcceptedFrame := by
  intro h t u d0 d1 d2 s hd hp legal lit h0 h1 h2 raw r
  have reading : r = tenths (decimalPoint t) (rawReading d0 d1 d2) := apply_ite (BitVec.ofNat 16) _ _ _
  have hr : r.toNat = raw * (if t.getLsbD 7 then 1 else 10) := by
    rw [reading]
    exact tenths_toNat (decimalPoint t) d0 d1 d2
  cases hn : s.cfg.msgLen
  case five =>
    have valid : ValidDeskFrame .five s.cfg.segTable #v[h, t, u, 0, 0] (checksum [h, t, u]) r :=
      ⟨(checksum_eq_iff _ _).1 rfl, nofun, lit, d0, d1, d2, h0, h1, h2, hr⟩
    exact (runEvents_deskf _ s).trans ((deskStatus5_outcomes hd hn hp h t u _).valid legal r valid)
  case six =>
    have valid : ValidDeskFrame .six s.cfg.segTable #v[h, t, u, deskType, 0] (checksum [h, t, u, deskType]) r :=
      ⟨(checksum_eq_iff _ _).1 rfl, fun _ => rfl, lit, d0, d1, d2, h0, h1, h2, hr⟩
    exact (runEvents_deskf _ s).trans ((deskStatus6_outcomes hd hn hp h t u _ _).valid legal r valid)

end Sys2Proof.Machine
end

section
/-! Whole remote frames (R79, R80, R130 to R135; O32, O35): what a remote byte does in each phase, what the checksum byte comes to,
and then the frame byte by byte. A command frame is one of them. -/

namespace Sys2Proof.Machine

/-! ## The bytes before the checksum byte -/

/-- What the bridge sends on of some bytes: all or none (R134). -/
def bridged (bs : List Byte) (s : State) : List OutEvent :=
  if s.cfg.deskPresent = true then bs.map .tx else []

theorem bridged_append (as bs : List Byte) (s : State) : bridged (as ++ bs) s = bridged as s ++ bridged bs s := by
  unfold bridged
  split
  · exact List.map_append
  · rfl

/-- A remote byte is bridged, then scanned (R130). -/
theorem remByte_of_present {s : State} (hr : s.cfg.remotePresent = true) (b : Byte) :
    remByte b s = .next (remScan b (emitAll (bridged [b] s) s)) := by
  rw [remByte, if_pos hr, bridge_eq]
  rfl

/-- `s` with the remote scanner in mid-frame, `n` bytes in the buffer `buf`, when what was pending has been taken, and then the
bytes `sent`, bridged one by one. -/
def remHolding (n : BitVec 2) (buf : Vector Byte 3) (sent : List Byte) (s : State) : State :=
  { s with
    rphase := .accumulating, rcnt := n, rbuf := buf, taken := s.taken ++ s.out ++ bridged sent s, out := [] }

/-- What waits before a byte may as well be taken beforehand. -/
theorem forBytes_cons_takeAll (f : Byte → State → Result) (b : Byte) (bs : List Byte) (s : State) :
    forBytes f (b :: bs) s = forBytes f (b :: bs) (takeAll s) := by
  rw [forBytes_cons, forBytes_cons, takeAll_takeAll]

theorem forBytes_rem_start {s : State} (hr : s.cfg.remotePresent = true) (hp : s.rphase = .searching) (b : Byte)
    (bs : List Byte) :
    forBytes remByte (remoteStart :: b :: bs) s = forBytes remByte (b :: bs) (remHolding 0 s.rbuf [remoteStart] s) := by
  have opened : remByte remoteStart (takeAll s) =
      .next { emitAll (bridged [remoteStart] s) (takeAll s) with rphase := .accumulating, rcnt := 0 } := by
    rw [remByte_of_present (s := takeAll s) hr, remScan, emitAll_rphase, takeAll_rphase, hp]
    rfl
  rw [forBytes_cons, opened, andThen_of_next, forBytes_cons_takeAll]
  rfl

theorem forBytes_rem_store {n : BitVec 2} {s : State} (hr : s.cfg.remotePresent = true) (room : n.toNat < 3)
    (buf : Vector Byte 3) (sent : List Byte) (b b' : Byte) (bs : List Byte) :
    forBytes remByte (b :: b' :: bs) (remHolding n buf sent s) =
      forBytes remByte (b' :: bs) (remHolding (n + 1) (buf.setIfInBounds n.toNat b) (sent ++ [b]) s) := by
  have stored : remByte b (remHolding n buf sent s) =
      .next (remAppend b (emitAll (bridged [b] s) (remHolding n buf sent s))) :=
    (remByte_of_present (s := remHolding n buf sent s) hr b).trans (congrArg _ (if_pos room))
  have taken : takeAll (remAppend b (emitAll (bridged [b] s) (remHolding n buf sent s))) =
      remHolding (n + 1) (buf.setIfInBounds n.toNat b) (sent ++ [b]) s := by
    rw [remHolding, remHolding, bridged_append, ← List.append_assoc]
    rfl
  rw [forBytes_cons, takeAll_of_out_nil rfl, stored, andThen_of_next, forBytes_cons_takeAll, taken]

theorem setIfInBounds_payload (v : Vector Byte 3) (r m x : Byte) :
    ((v.setIfInBounds 0 r).setIfInBounds 1 m).setIfInBounds 2 x = #v[r, m, x] := by
  rw [remote_buffer_eta v]
  rfl

/-- The last byte of a remote frame meets its payload in the buffer, with all before it sent on and taken. -/
theorem exec_remoteKeys_eq_remByte {s : State} (hr : s.cfg.remotePresent = true) (hp : s.rphase = .searching)
    (r m x c : Byte) :
    exec (.remoteKeys r m x c) s = remByte c (remHolding 3 #v[r, m, x] [remoteStart, r, m, x] s) := by
  have payload : exec (.remoteKeys r m x c) s =
      forBytes remByte [c] (remHolding 3 (((s.rbuf.setIfInBounds 0 r).setIfInBounds 1 m).setIfInBounds 2 x)
        [remoteStart, r, m, x] s) := by
    show forBytes remByte [remoteStart, r, m, x, c] s = _
    rw [forBytes_rem_start hr hp, forBytes_rem_store hr (by decide), forBytes_rem_store hr (by decide),
      forBytes_rem_store hr (by decide)]
    rfl
  rw [payload, setIfInBounds_payload, forBytes_singleton, takeAll_of_out_nil rfl]

/-! ## The checksum byte -/

/-- The echo of a mask: its frame when IDLE and when there is a desk (R133). -/
def echo (m : Byte) (s : State) : List OutEvent :=
  if s.mvState = .idle ∧ s.cfg.deskPresent = true then [.tx 0xA5, .tx 0x00, .tx m, .tx (0xFF - m), .tx 0xFF] else []

/-- The publication of a mask's five buttons (R83, R133). -/
def maskPub (m : Byte) : OutEvent :=
  .buttonPub (decide (m &&& 0x20 ≠ 0)) (decide (m &&& 0x40 ≠ 0)) (decide (m &&& 0x02 ≠ 0)) (decide (m &&& 0x04 ≠ 0))
    (decide (m &&& 0x08 ≠ 0))

/-- `s` with the five buttons of a mask (R83). -/
def withMask (m : Byte) (s : State) : State :=
  { s with
    btnUp := decide (m &&& 0x20 ≠ 0), btnDown := decide (m &&& 0x40 ≠ 0), btnM1 := decide (m &&& 0x02 ≠ 0),
    btnM2 := decide (m &&& 0x04 ≠ 0), btnM3 := decide (m &&& 0x08 ≠ 0) }

theorem remAccept_eq_withMask (m : Byte) (s : State) :
    remAccept m s = emitAll (maskPub m :: echo m s) (withMask m s) := by
  obtain ⟨up, down, m1, m2, m3⟩ := mask_bits m
  rw [remAccept_eq, setButtons, maskPub, withMask, ← up, ← down, ← m1, ← m2, ← m3]
  rfl

theorem remByte_of_full {s : State} (hr : s.cfg.remotePresent = true) (hp : s.rphase = .accumulating) (hc : s.rcnt = 3)
    (c : Byte) : remByte c s = .next (remCheck c (emitAll (bridged [c] s) s)) := by
  rw [remByte_of_present hr, remScan, emitAll_rphase, hp]
  exact congrArg _ (if_neg (by simp [hc]))

theorem remByte_of_badSum {s : State} (hr : s.cfg.remotePresent = true) (hp : s.rphase = .accumulating) (hc : s.rcnt = 3)
    {c : Byte} (bad : ¬sumsTo [s.rbuf[0], s.rbuf[1], s.rbuf[2]] c) :
    remByte c s = .next (emitAll (bridged [c] s ++ [.diag 2]) (remResync s)) := by
  have hne := mt (checksum_eq_iff _ _).1 bad
  rw [remByte_of_full hr hp hc, ← emitAll_emitAll]
  exact congrArg _ (congrArg remResync (if_pos hne))

theorem remByte_of_goodSum {s : State} (hr : s.cfg.remotePresent = true) (hp : s.rphase = .accumulating) (hc : s.rcnt = 3)
    {c : Byte} (good : sumsTo [s.rbuf[0], s.rbuf[1], s.rbuf[2]] c) :
    remByte c s =
      .next (emitAll (bridged [c] s ++ [maskPub s.rbuf[1]] ++ echo s.rbuf[1] s) (withMask s.rbuf[1] (remResync s))) := by
  have heq := not_not.2 ((checksum_eq_iff _ _).2 good)
  rw [remByte_of_full hr hp hc, List.append_assoc, ← emitAll_emitAll]
  refine congrArg _ ((congrArg remResync (if_neg heq)).trans ?_)
  rw [remAccept_eq_withMask]
  rfl

/-! ## Whole frames -/

theorem remResync_remHolding {s : State} (hp : s.rphase = .searching) (n : BitVec 2) (buf : Vector Byte 3)
    (sent : List Byte) :
    remResync (remHolding n buf sent s) =
      { s with rcnt := 0, rbuf := #v[0, 0, 0], taken := s.taken ++ s.out ++ bridged sent s, out := [] } := by
  unfold remResync
  rw [← hp]
  rfl

/-- Settles O32. -/
theorem remoteFrameFromSearching : Obligations.RemoteFrameFromSearching := by
  intro r m x c s hr hp
  have frame := exec_remoteKeys_eq_remByte hr hp r m x c
  have resynced := remResync_remHolding hp 3 #v[r, m, x] [remoteStart, r, m, x]
  refine ⟨fun bad => ?bad, fun good => ?good⟩
  case bad =>
    rw [frame, remByte_of_badSum (s := remHolding 3 #v[r, m, x] [remoteStart, r, m, x] s) hr rfl rfl bad, resynced]
    rfl
  case good =>
    rw [frame, remByte_of_goodSum (s := remHolding 3 #v[r, m, x] [remoteStart, r, m, x] s) hr rfl rfl good, resynced]
    rfl

theorem sumsTo_commandFrame (p : Byte) : sumsTo [0x00, p, 0xFF - p] 0xFF := by
  have hq : (0xFF - p).toNat = 255 - p.toNat := by rw [sub_eq_not, BitVec.toNat_not]
  have hp := p.isLt
  show (0 + (p.toNat + ((0xFF - p).toNat + 0))) % 256 = 255
  rw [hq]
  omega

/-- Settles O35: `00 + P + (0xFF - P)` is `0xFF`, so the frame is accepted. -/
theorem commandFrameReadAsRemoteFrame : Obligations.CommandFrameReadAsRemoteFrame := by
  intro p s hr hp up down m1 m2 m3
  have accepted := (remoteFrameFromSearching 0x00 p (0xFF - p) 0xFF s hr hp).2 (sumsTo_commandFrame p)
  refine ⟨_, _, (runEvents_remf [0x00, p, 0xFF - p, 0xFF] s).trans accepted, hp, rfl, rfl, rfl, rfl, rfl,
    List.append_assoc _ _ _, ?_⟩
  exact List.mem_append_right _ (List.mem_append_left _ (List.mem_append_right _ (List.mem_singleton.2 rfl)))

end Sys2Proof.Machine
end

section
/-! Segment bytes (R82, R101, R102; O28, O29): a byte is its decimal point and its pattern, and the lookup reads the pattern
alone. So a legal table's ten digits are decoded from ten patterns, each with and without the point. -/

namespace Sys2Proof.Machine

/-- The byte that shows the digit `d`, with or without the decimal point (R82, R101). -/
def segByte (tbl : SegTable) (point : Bool) (d : Digit) : Byte := BitVec.ofBool point ++ tbl[d]

/-! ## A byte as its point and its pattern -/

theorem segPattern_segByte (tbl : SegTable) (point : Bool) (d : Digit) : segPattern (segByte tbl point d) = tbl[d] :=
  BitVec.extractLsb'_append_eq_right

theorem decimalPoint_segByte (tbl : SegTable) (point : Bool) (d : Digit) : decimalPoint (segByte tbl point d) = point := by
  rw [decimalPoint, segByte, BitVec.getLsbD_append]
  simp

theorem decimalPoint_append_segPattern : ∀ b : Byte, BitVec.ofBool (decimalPoint b) ++ segPattern b = b := by decide

theorem segByte_of_pattern {tbl : SegTable} {b : Byte} {d : Digit} (hd : tbl[d] = segPattern b) :
    segByte tbl (decimalPoint b) d = b := by
  rw [segByte, hd]
  exact decimalPoint_append_segPattern b

theorem segPattern_clear_point : ∀ b : Byte, segPattern (b &&& 0x7F) = segPattern b := by decide

/-! ## The lookup -/

theorem segdec_congr (tbl : SegTable) {b c : Byte} (h : segPattern b = segPattern c) : segdec tbl b = segdec tbl c := by
  rw [segdec, segdec, h]

theorem segdec_eq_some_iff {tbl : SegTable} (legal : tbl.legal = true) (b : Byte) (d : Digit) :
    segdec tbl b = some d ↔ tbl[d] = segPattern b :=
  ⟨segdec_pattern, segdec_of_pattern legal⟩

/-- Settles O28. -/
theorem segdecFindsTheOneDigit : Obligations.SegdecFindsTheOneDigit := fun tbl b legal =>
  ⟨segdec_eq_some_iff legal b, segdec_congr tbl (segPattern_clear_point b).symm⟩

/-! ## The bytes it decodes -/

theorem segdec_isSome_iff {tbl : SegTable} (legal : tbl.legal = true) (b : Byte) :
    (segdec tbl b).isSome = true ↔ ∃ point d, segByte tbl point d = b := by
  rw [Option.isSome_iff_exists]
  constructor
  · rintro ⟨d, hd⟩
    exact ⟨decimalPoint b, d, segByte_of_pattern (segdec_pattern hd)⟩
  · rintro ⟨point, d, rfl⟩
    exact ⟨d, (segdec_eq_some_iff legal _ d).2 (segPattern_segByte tbl point d).symm⟩

/-- The digit comes back from the pattern because a legal table is injective (R101). -/
theorem segByte_injective {tbl : SegTable} (legal : tbl.legal = true) :
    Function.Injective fun x : Bool × Digit => segByte tbl x.1 x.2 := by
  rintro ⟨point, d⟩ ⟨point', d'⟩ same
  have points := congrArg decimalPoint same
  have patterns := congrArg segPattern same
  simp only [decimalPoint_segByte, segPattern_segByte] at points patterns
  rw [points, legal_injective legal patterns]

theorem card_decoded_bytes {tbl : SegTable} (legal : tbl.legal = true) :
    (Finset.univ.filter fun b : Byte => (segdec tbl b).isSome = true).card = 20 := by
  have shown : (Finset.univ.filter fun b : Byte => (segdec tbl b).isSome = true) =
      Finset.univ.image fun x : Bool × Digit => segByte tbl x.1 x.2 := by
    ext b
    simp [segdec_isSome_iff legal]
  rw [shown, Finset.card_image_of_injective _ (segByte_injective legal)]
  rfl

/-- Counting the numbers below 256 counts the bytes. -/
theorem length_filter_range_eq_card (p : Byte → Bool) :
    ((List.range 256).filter fun n => p (BitVec.ofNat 8 n)).length = (Finset.univ.filter fun b => p b = true).card := by
  rw [← List.toFinset_card_of_nodup (List.nodup_range.filter _), List.toFinset_filter, List.toFinset_range]
  refine Finset.card_nbij' (BitVec.ofNat 8) BitVec.toNat ?_ ?_ ?_ ?_
  · intro n hn
    simpa using (Finset.mem_filter.1 hn).2
  · intro b hb
    simpa [b.isLt] using hb
  · intro n hn
    exact Nat.mod_eq_of_lt (Finset.mem_range.1 (Finset.mem_filter.1 hn).1)
  · intro b _
    exact BitVec.eq_of_toNat_eq (Nat.mod_eq_of_lt b.isLt)

/-- Settles O29: two bytes for each of the ten digits. -/
theorem segdecDecodesTwentyBytes : Obligations.SegdecDecodesTwentyBytes := fun tbl legal =>
  (length_filter_range_eq_card fun b => (segdec tbl b).isSome).trans (card_decoded_bytes legal)

end Sys2Proof.Machine
end

section
/-! The desk scanner byte by byte (R111 to R118; O13, O14, O15, O23, O24): what one byte does in each phase, that only the last
byte of a valid frame publishes a height, and that over a byte stream the frame stands in the stream. -/

namespace Sys2Proof.Machine

/-! ## One byte in each phase -/

/-- Settles O13. -/
theorem searchingDeskScannerTakesOnlyStartByte : Obligations.SearchingDeskScannerTakesOnlyStartByte :=
  fun b _ hd hp => deskByte_of_searching hd hp b

theorem deskHolding_self {s : State} (hp : s.dphase = .accumulating) : deskHolding s.dcnt s.dbuf s = s := by
  rw [deskHolding, ← hp]

theorem deskByte_of_room {s : State} (hd : s.cfg.deskPresent = true) (hp : s.dphase = .accumulating)
    (room : s.dcnt.toNat + 1 < msgLenNat s.cfg.msgLen - 1) (b : Byte) : deskByte b s = .next (deskAppend b s) := by
  have stored := deskByte_store hd room (n := s.dcnt) (buf := s.dbuf) b
  rw [deskHolding_self hp] at stored
  rw [stored, deskAppend, deskHolding, ← hp]

/-- Settles O14. -/
theorem accumulatingDeskScannerStoresEveryByte : Obligations.AccumulatingDeskScannerStoresEveryByte := by
  intro b s hd hp room
  have counted : BitVec.ofNat 3 (s.dcnt.toNat + 1) = s.dcnt + 1 := by simp [BitVec.ofNat_add]
  rw [counted]
  exact deskByte_of_room hd hp room b

/-- Settles O15: the outcomes of the byte that completes a frame, at the state itself. -/
theorem completeDeskFrameOutcomes : Obligations.CompleteDeskFrameOutcomes := by
  intro c s hd hp hc legal n sumOk resynced
  have await : AwaitsChecksum s := ⟨hd, hp, hc⟩
  have accepted : ∀ h, ValidDeskFrame n s.cfg.segTable s.dbuf c h →
      exec (.deskRx c) s = .next { resynced with
        curPos := h, posKnown := true,
        out := s.out ++ if s.posKnown = false ∨ h ≠ s.curPos then [.heightPub h] else [] } := fun h valid =>
    (deskByte_of_valid await legal valid).trans (congrArg _ (acceptReading_eq h (deskResync s)))
  refine ⟨deskByte_of_badSum await, fun h valid known same => ?unchanged, fun h valid new => ?published,
    deskByte_of_noReading await⟩
  case unchanged =>
    have old : ¬(s.posKnown = false ∨ h ≠ s.curPos) := by simp [known, same]
    rw [accepted h valid, if_neg old, List.append_nil, same, ← known]
  case published => rw [accepted h valid, if_pos new]

/-! ## A height is published only by a valid frame -/

/-- Everything one desk byte can do between steps (R111, R112): be passed over, open a frame, be stored, complete a frame. -/
theorem deskByte_cases_of_coreInv {b : Byte} {s t : State} (inv : CoreInv s) (h : deskByte b s = .next t) :
    (s.dphase = .searching ∧ t = s) ∨ (b = deskStart ∧ t = deskHolding 0 s.dbuf s) ∨
      (s.dphase = .accumulating ∧ s.dcnt.toNat + 1 < msgLenNat s.cfg.msgLen - 1 ∧ t = deskAppend b s) ∨
      AwaitsChecksum s := by
  cases hp : s.dphase
  case searching =>
    obtain rfl | ⟨_, _, hb, rfl⟩ | ⟨_, hacc, _⟩ | ⟨_, hacc, _⟩ := deskByte_cases h
    · exact .inl ⟨rfl, rfl⟩
    · exact .inr (.inl ⟨hb, rfl⟩)
    all_goals exact absurd (hp.symm.trans hacc) nofun
  case accumulating =>
    have hd : s.cfg.deskPresent = true := by
      by_contra no
      obtain ⟨_, searching, _⟩ := inv.deskAbsent (Bool.eq_false_of_not_eq_true no)
      exact absurd (hp.symm.trans searching) nofun
    by_cases room : s.dcnt.toNat + 1 < msgLenNat s.cfg.msgLen - 1
    · exact .inr (.inr (.inl ⟨rfl, room, Host.Outcome.next.inj (h.symm.trans (deskByte_of_room hd hp room b))⟩))
    · have hroom := inv.deskRoom hp
      exact .inr (.inr (.inr ⟨hd, hp, by omega⟩))

/-- What was pending in `s` is followed in `t` by events of which none is a height. -/
def NoHeightEmitted (s t : State) : Prop := ∃ es, t.out = s.out ++ es ∧ ∀ r, .heightPub r ∉ es

theorem NoHeightEmitted.not_mem {s t : State} (quiet : NoHeightEmitted s t) {es : List OutEvent}
    (hout : t.out = s.out ++ es) (r : Tenths) : .heightPub r ∉ es := by
  obtain ⟨fs, hfs, no⟩ := quiet
  rw [List.append_cancel_left (hout.symm.trans hfs)]
  exact no r

theorem NoHeightEmitted.trans {s t u : State} (first : NoHeightEmitted s t) (second : NoHeightEmitted t u) :
    NoHeightEmitted s u := by
  obtain ⟨es, hes, noes⟩ := first
  obtain ⟨fs, hfs, nofs⟩ := second
  exact ⟨es ++ fs, by rw [hfs, hes, List.append_assoc], fun r => by simp [noes r, nofs r]⟩

theorem noHeightEmitted_of_same_out {s t : State} (hout : t.out = s.out) : NoHeightEmitted s t :=
  ⟨[], by rw [hout, List.append_nil], fun _ => List.not_mem_nil⟩

/-- The byte that completes a frame publishes the frame's reading or no height (R113, R114). -/
theorem valid_of_height_emitted {c : Byte} {s t : State} {es : List OutEvent} {r : Tenths} (await : AwaitsChecksum s)
    (legal : s.cfg.segTable.legal = true) (h : deskByte c s = .next t) (hout : t.out = s.out ++ es)
    (pub : .heightPub r ∈ es) : ValidDeskFrame s.cfg.msgLen s.cfg.segTable s.dbuf c r := by
  by_cases sum : FrameSums s.cfg.msgLen s.dbuf c
  · by_cases valid : ∃ r', ValidDeskFrame s.cfg.msgLen s.cfg.segTable s.dbuf c r'
    · obtain ⟨r', valid⟩ := valid
      rw [deskByte_of_valid await legal valid, acceptReading_eq] at h
      cases h
      have emitted := List.append_cancel_left hout
      rw [← emitted] at pub
      split at pub
      · cases List.mem_singleton.1 pub
        exact valid
      · cases pub
    · rw [deskByte_of_noReading await sum (not_exists.1 valid)] at h
      cases h
      exact absurd pub ((noHeightEmitted_of_same_out (s := s) rfl).not_mem hout r)
  · rw [deskByte_of_badSum await sum] at h
    cases h
    have quiet : NoHeightEmitted s (emitAll [.diag 1] (deskResync s)) := ⟨_, rfl, by simp⟩
    exact absurd pub (quiet.not_mem hout r)

theorem deskByte_emits_height {c : Byte} {s t : State} {es : List OutEvent} {r : Tenths} (inv : CoreInv s)
    (h : deskByte c s = .next t) (hout : t.out = s.out ++ es) (pub : .heightPub r ∈ es) :
    AwaitsChecksum s ∧ ValidDeskFrame s.cfg.msgLen s.cfg.segTable s.dbuf c r := by
  obtain ⟨_, rfl⟩ | ⟨_, rfl⟩ | ⟨_, _, rfl⟩ | await := deskByte_cases_of_coreInv inv h
  · exact absurd pub ((noHeightEmitted_of_same_out rfl).not_mem hout r)
  · exact absurd pub ((noHeightEmitted_of_same_out (s := s) rfl).not_mem hout r)
  · exact absurd pub ((noHeightEmitted_of_same_out (s := s) rfl).not_mem hout r)
  · exact ⟨await, valid_of_height_emitted await inv.table h hout pub⟩

/-! ### No other event publishes a height -/

theorem heightPub_not_mem_frameEvents (p : Byte) (r : Tenths) : .heightPub r ∉ frameEvents p := by
  simp [frameEvents]

theorem noHeightEmitted_txFrame (p : Byte) (s : State) : NoHeightEmitted s (txFrame p s) := by
  rw [txFrame_eq]
  refine ⟨_, rfl, fun r => ?_⟩
  split
  · exact heightPub_not_mem_frameEvents p r
  · exact List.not_mem_nil

theorem noHeightEmitted_illegalWord (s : State) : NoHeightEmitted s (illegalWord s) :=
  ⟨[.diag 3], rfl, by simp⟩

theorem noHeightEmitted_bridge (b : Byte) (s : State) : NoHeightEmitted s (bridge b s) := by
  rw [bridge_eq]
  exact ⟨_, rfl, fun r => by split <;> simp⟩

theorem noHeightEmitted_remAccept (m : Byte) (s : State) : NoHeightEmitted s (remAccept m s) := by
  rw [remAccept_eq]
  refine ⟨_, rfl, fun r => ?_⟩
  split
  · simp [heightPub_not_mem_frameEvents]
  · simp

theorem noHeightEmitted_remCheck (c : Byte) (s : State) : NoHeightEmitted s (remCheck c s) := by
  obtain ⟨_, hf⟩ | ⟨_, hf⟩ := remCheck_cases c s <;> rw [hf]
  · exact ⟨[.diag 2], rfl, by simp⟩
  · exact (noHeightEmitted_remAccept _ s).trans (noHeightEmitted_of_same_out rfl)

theorem noHeightEmitted_remByte {b : Byte} {s t : State} (h : remByte b s = .next t) : NoHeightEmitted s t := by
  have bridged := noHeightEmitted_bridge b s
  obtain ⟨_, rfl⟩ | ⟨_, _, _, rfl⟩ | ⟨_, _, _, rfl⟩ | ⟨_, _, _, rfl⟩ | ⟨_, _, _, rfl⟩ := remByte_cases h
  · exact noHeightEmitted_of_same_out rfl
  · exact bridged
  · exact bridged.trans (noHeightEmitted_of_same_out rfl)
  · exact bridged.trans (noHeightEmitted_of_same_out rfl)
  · exact bridged.trans (noHeightEmitted_remCheck b _)

theorem noHeightEmitted_execCycle {s t : State} (h : execCycle s = .next t) : NoHeightEmitted s t := by
  obtain ⟨_, hc⟩ | ⟨_, _, hc⟩ | ⟨_, _, hc⟩ | ⟨_, _, hc⟩ | ⟨_, _, hc⟩ := execCycle_cases s <;> rw [hc] at h <;> cases h
  · exact noHeightEmitted_of_same_out rfl
  · exact noHeightEmitted_of_same_out rfl
  · exact noHeightEmitted_txFrame _ s
  · exact noHeightEmitted_of_same_out rfl
  · exact noHeightEmitted_txFrame _ s

theorem noHeightEmitted_execMoveTo {g : Tenths} {s t : State} (h : execMoveTo g s = .next t) : NoHeightEmitted s t := by
  obtain rfl | ⟨_, rfl⟩ := execMoveTo_cases h
  · exact noHeightEmitted_of_same_out rfl
  · exact noHeightEmitted_of_same_out rfl

/-- Settles O23, one case for each meaning. -/
theorem heightPublishedOnlyByValidFrame : Obligations.HeightPublishedOnlyByValidFrame := by
  intro i s t es r inv hi h hout pub
  rw [exec_eq_run] at h
  cases hm : meaning i <;> rw [hm] at h
  case desk c =>
    obtain ⟨await, valid⟩ := deskByte_emits_height inv h hout pub
    exact ⟨c, meaning_eq_desk hm, await.phase, await.count, valid⟩
  case remote b => exact absurd pub ((noHeightEmitted_remByte h).not_mem hout r)
  case cycle => exact absurd pub ((noHeightEmitted_execCycle h).not_mem hout r)
  case moveTo g => exact absurd pub ((noHeightEmitted_execMoveTo h).not_mem hout r)
  case stop =>
    cases h
    exact absurd pub ((noHeightEmitted_of_same_out (s := s) rfl).not_mem hout r)
  case send p =>
    cases h
    exact absurd pub ((noHeightEmitted_txFrame p s).not_mem hout r)
  case illegal =>
    cases h
    exact absurd pub ((noHeightEmitted_illegalWord s).not_mem hout r)
  case deskBytes bs => exact absurd hm ((meaning_of_isEvent hi).1 bs)
  case remoteBytes bs => exact absurd hm ((meaning_of_isEvent hi).2 bs)

/-! ## Over a byte stream the frame stands in the stream -/

/-- The bytes of a desk frame of length `n` on the bus. -/
def deskFrameBytes (n : MsgLen) (buf : Vector Byte 5) (c : Byte) : List Byte :=
  deskStart :: (buf.toList.take (msgLenNat n - 2) ++ [c])

/-- A start byte and a valid frame with reading `r` stand together in `seen`. -/
def FrameHeard (cfg : Cfg) (seen : List Byte) (r : Tenths) : Prop :=
  ∃ buf c, deskFrameBytes cfg.msgLen buf c <:+: seen ∧ ValidDeskFrame cfg.msgLen cfg.segTable buf c r

theorem FrameHeard.append {cfg : Cfg} {seen : List Byte} {r : Tenths} (heard : FrameHeard cfg seen r) (bs : List Byte) :
    FrameHeard cfg (seen ++ bs) r := by
  obtain ⟨buf, c, stands, valid⟩ := heard
  exact ⟨buf, c, stands.trans (List.prefix_append seen bs).isInfix, valid⟩

/-- What the desk scanner keeps of the bytes `seen` since reset: in mid-frame they end with a start byte and the buffer, and
every height that was published stands in them. -/
structure Heard (cfg : Cfg) (seen : List Byte) (s : State) : Prop where
  inv : CoreInv s
  config : s.cfg = cfg
  buffered : s.dphase = .accumulating → deskStart :: s.dbuf.toList.take s.dcnt.toNat <:+ seen
  published : ∀ r, .heightPub r ∈ s.taken ++ s.out → FrameHeard cfg seen r

theorem heard_resetWith {cfg : Cfg} (legal : cfg.segTable.legal = true) : Heard cfg [] (State.resetWith cfg [] []) where
  inv := coreInv_resetWith [] legal nofun
  config := rfl
  buffered := nofun
  published := nofun

theorem heard_takeAll {cfg : Cfg} {seen : List Byte} {s : State} (heard : Heard cfg seen s) :
    Heard cfg seen (takeAll s) where
  inv := coreInv_takeAll heard.inv
  config := heard.config
  buffered := heard.buffered
  published := fun r pub => heard.published r (by simpa using pub)

/-- A stored byte comes after the bytes that were there. -/
theorem take_setIfInBounds_succ (v : Vector Byte 5) {k : Nat} (hk : k < 5) (b : Byte) :
    (v.setIfInBounds k b).toList.take (k + 1) = v.toList.take k ++ [b] := by
  rw [Vector.toList_setIfInBounds, List.take_add_one, List.take_set_of_le le_rfl]
  simp [hk]

theorem deskFrameBytes_eq_of_awaitsChecksum {s : State} (await : AwaitsChecksum s) (c : Byte) :
    deskFrameBytes s.cfg.msgLen s.dbuf c = deskStart :: s.dbuf.toList.take s.dcnt.toNat ++ [c] := by
  have hcount := await.count
  rw [deskFrameBytes, show msgLenNat s.cfg.msgLen - 2 = s.dcnt.toNat by omega]
  rfl

theorem dphase_of_awaitsChecksum {c : Byte} {s t : State} (await : AwaitsChecksum s) (h : deskByte c s = .next t) :
    t.dphase = .searching := by
  rw [deskByte_of_awaitsChecksum await] at h
  cases h
  rfl

/-- Each byte goes to the end of what was seen, and a height it publishes has its frame there. -/
theorem heard_deskByte {cfg : Cfg} {seen : List Byte} {b : Byte} {s t : State} (heard : Heard cfg seen s)
    (h : deskByte b s = .next t) : Heard cfg (seen ++ [b]) t where
  inv := coreInv_deskByte heard.inv h
  config := (progress_deskByte h).cfg.trans heard.config
  buffered := fun hp => by
    obtain ⟨searching, rfl⟩ | ⟨hb, rfl⟩ | ⟨hacc, room, rfl⟩ | await := deskByte_cases_of_coreInv heard.inv h
    · exact absurd (searching.symm.trans hp) nofun
    · rw [hb]
      exact List.suffix_append seen [deskStart]
    · have hlt := dcnt_lt_of_coreInv heard.inv hacc
      have count : (s.dcnt + 1).toNat = s.dcnt.toNat + 1 := by rw [BitVec.toNat_add]; simp; omega
      rw [deskAppend_dbuf, deskAppend_dcnt, count, take_setIfInBounds_succ s.dbuf hlt]
      exact List.suffix_append_self_iff.2 (heard.buffered hacc)
    · exact absurd ((dphase_of_awaitsChecksum await h).symm.trans hp) nofun
  published := fun r pub => by
    obtain ⟨_, _, _, _, _, es, _, rfl⟩ := deskByte_writes h
    have before_or_now : .heightPub r ∈ s.taken ++ s.out ∨ .heightPub r ∈ es := by
      simpa [or_assoc] using pub
    obtain before | now := before_or_now
    · exact (heard.published r before).append [b]
    · obtain ⟨await, valid⟩ := deskByte_emits_height heard.inv h rfl now
      rw [← heard.config]
      refine ⟨s.dbuf, b, ?_, valid⟩
      rw [deskFrameBytes_eq_of_awaitsChecksum await]
      exact (List.suffix_append_self_iff.2 (heard.buffered await.phase)).isInfix

theorem heard_forBytes {cfg : Cfg} (bs : List Byte) {seen : List Byte} {s t : State} (heard : Heard cfg seen s)
    (h : forBytes deskByte bs s = .next t) : Heard cfg (seen ++ bs) t := by
  induction bs generalizing seen s with
  | nil =>
    cases h
    rwa [List.append_nil]
  | cons b bs ih =>
    obtain ⟨u, hu, ht⟩ := andThen_next.1 h
    rw [List.append_cons]
    exact ih (heard_deskByte (heard_takeAll heard) hu) ht

/-- Settles O24: what was heard since reset is the stream. -/
theorem noFalsePositivesOverByteStreams : Obligations.NoFalsePositivesOverByteStreams := by
  intro cfg bs t r legal h pub
  rw [runEvents_map_eq_forBytes (f := deskByte) (fun _ _ => rfl)] at h
  obtain ⟨buf, c, ⟨before, after, stands⟩, valid⟩ := (heard_forBytes bs (heard_resetWith legal) h).published r pub
  refine ⟨before, after, buf[0], buf[1], buf[2], buf[3], c, ?_⟩
  rw [desk_buffer_eta buf] at stands valid
  cases hn : cfg.msgLen <;> rw [hn] at stands valid
  case five => exact ⟨stands.symm, (validDeskFrame_five_iff _ _ _ _).1 valid⟩
  case six => exact ⟨stands.symm, (validDeskFrame_six_iff _ _).1 valid⟩

end Sys2Proof.Machine
end

section
/-! The remote scanner byte by byte and the bridge (R130 to R137; O30, O31, O33, O34): what one byte does in each phase, that its
first output is its own copy, and that the copies of a stream are the stream. -/

namespace Sys2Proof.Machine

/-! ## One byte in each phase -/

theorem remByte_of_searching {s : State} (hr : s.cfg.remotePresent = true) (hp : s.rphase = .searching) (b : Byte) :
    remByte b s = .next (remSearch b (emitAll (bridged [b] s) s)) := by
  rw [remByte_of_present hr, remScan, emitAll_rphase, hp]

theorem remByte_of_room {s : State} (hr : s.cfg.remotePresent = true) (hp : s.rphase = .accumulating)
    (room : s.rcnt.toNat < 3) (b : Byte) : remByte b s = .next (remAppend b (emitAll (bridged [b] s) s)) := by
  rw [remByte_of_present hr, remScan, emitAll_rphase, hp]
  exact congrArg _ (if_pos room)

/-- Settles O30. -/
theorem remoteByteIsBridgedThenScanned : Obligations.RemoteByteIsBridgedThenScanned := by
  intro b s hr
  refine ⟨fun hp hb => ?start, fun hp hb => ?discarded, fun hp room => ?stored⟩
  case start => exact (remByte_of_searching hr hp b).trans (congrArg _ (if_pos hb))
  case discarded => exact (remByte_of_searching hr hp b).trans (congrArg _ (if_neg hb))
  case stored =>
    have counted : BitVec.ofNat 2 (s.rcnt.toNat + 1) = s.rcnt + 1 := by simp [BitVec.ofNat_add]
    rw [counted]
    exact remByte_of_room hr hp room b

/-- Settles O31: the outcomes of the checksum byte, at the state itself. -/
theorem completeRemoteFrameOutcomes : Obligations.CompleteRemoteFrameOutcomes := by
  intro c s hr hp hc
  refine ⟨fun bad => (remByte_of_badSum hr hp hc bad).trans ?bad,
    fun good => (remByte_of_goodSum hr hp hc good).trans ?good⟩
  case bad =>
    rw [← emitAll_emitAll]
    rfl
  case good =>
    rw [← emitAll_emitAll, ← emitAll_emitAll]
    rfl

/-! ## The copy of a byte is its first output -/

theorem remByte_frame {b : Byte} {s t : State} (h : remByte b s = .next t) :
    t.cfg = s.cfg ∧ t.mvState = s.mvState ∧ t.taken = s.taken := by
  obtain ⟨_, _, _, _, _, _, _, _, _, rfl⟩ := remByte_writes h
  exact ⟨rfl, rfl, rfl⟩

/-- The checksum byte itself sends to the desk only the echo, and that only when IDLE (R133). -/
theorem remCheck_emits (c : Byte) (s : State) :
    ∃ es, (remCheck c s).out = s.out ++ es ∧ (s.mvState ≠ .idle → txBytes es = []) := by
  obtain ⟨_, bad⟩ | ⟨_, good⟩ := remCheck_cases c s
  · exact ⟨[.diag 2], by rw [bad]; rfl, fun _ => rfl⟩
  · refine ⟨maskPub s.rbuf[1] :: echo s.rbuf[1] s, by rw [good, remAccept_eq_withMask]; rfl, fun moving => ?_⟩
    rw [echo, if_neg fun both => moving both.1]
    rfl

/-- Behind the copy of a byte come only the outputs of the scanner, which sends nothing to the desk while the core moves. -/
theorem remByte_emits {b : Byte} {s t : State} (hr : s.cfg.remotePresent = true) (hd : s.cfg.deskPresent = true)
    (h : remByte b s = .next t) : ∃ es, t.out = s.out ++ .tx b :: es ∧ (s.mvState ≠ .idle → txBytes es = []) := by
  have copied : bridge b s = emitAll [.tx b] s := if_pos hd
  obtain ⟨absent, _⟩ | ⟨_, _, _, rfl⟩ | ⟨_, _, _, rfl⟩ | ⟨_, _, _, rfl⟩ | ⟨_, _, _, rfl⟩ := remByte_cases h
  · simp [hr] at absent
  · exact ⟨[], by rw [copied]; rfl, fun _ => rfl⟩
  · exact ⟨[], by rw [copied]; rfl, fun _ => rfl⟩
  · exact ⟨[], by rw [copied]; rfl, fun _ => rfl⟩
  · rw [copied]
    obtain ⟨es, emitted, quiet⟩ := remCheck_emits b (emitAll [.tx b] s)
    exact ⟨es, by rw [emitted]; exact List.append_assoc _ _ _, quiet⟩

/-- Settles O34. -/
theorem bridgedByteIsTheFirstOutput : Obligations.BridgedByteIsTheFirstOutput := by
  intro b s hr hd
  obtain ⟨t, ht⟩ := remByte_completes b s
  obtain ⟨es, first, _⟩ := remByte_emits hr hd ht
  exact ⟨t, es, ht, first⟩

/-! ## The copies of a stream are the stream -/

theorem txBytes_append (es fs : List OutEvent) : txBytes (es ++ fs) = txBytes es ++ txBytes fs := by
  induction es with
  | nil => rfl
  | cons e es ih =>
    cases e
    case tx b => exact congrArg (b :: ·) ih
    all_goals exact ih

/-- While the core moves, each byte puts exactly itself on the desk bus and lets the core move on. -/
theorem forBytes_rem_forwards (bs : List Byte) {s : State} (hr : s.cfg.remotePresent = true)
    (hd : s.cfg.deskPresent = true) (moving : s.mvState ≠ .idle) :
    ∃ t es, forBytes remByte bs s = .next t ∧ t.taken ++ t.out = s.taken ++ s.out ++ es ∧ txBytes es = bs := by
  induction bs generalizing s with
  | nil => exact ⟨s, [], rfl, (List.append_nil _).symm, rfl⟩
  | cons b bs ih =>
    obtain ⟨u, hu⟩ := remByte_completes b (takeAll s)
    obtain ⟨cfg, move, taken⟩ := remByte_frame hu
    obtain ⟨first, out, quiet⟩ := remByte_emits (s := takeAll s) hr hd hu
    obtain ⟨t, rest, ht, outputs, forwarded⟩ := ih (cfg ▸ hr) (cfg ▸ hd) (move ▸ moving)
    refine ⟨t, .tx b :: first ++ rest, ?completes, ?outputs, ?forwarded⟩
    case completes => rw [forBytes_cons, hu, andThen_of_next, ht]
    case outputs => simp [outputs, taken, out]
    case forwarded => simp [txBytes_append, txBytes, quiet moving, forwarded]

/-- Settles O33. -/
theorem bridgeForwardsEveryByteInOrder : Obligations.BridgeForwardsEveryByteInOrder := by
  intro bs s hr hd moving
  rw [runEvents_map_eq_forBytes (f := remByte) (fun _ _ => rfl)]
  exact forBytes_rem_forwards bs hr hd moving

end Sys2Proof.Machine
end

section
/-! The command encoder's events: the three presets and the simulated button, each by its word and its frame (R152 to R155;
O37, O38). -/

namespace Sys2Proof.Machine

/-- Settles O37: each word is its row's encoding, and the three rows send their payloads. -/
theorem presetsSendTheirFrames : Obligations.PresetsSendTheirFrames := fun s =>
  ⟨decode_encode (i := .preset1) rfl, decode_encode (i := .preset2) rfl, decode_encode (i := .preset3) rfl,
    exec_of_meaning_send rfl s, exec_of_meaning_send rfl s, exec_of_meaning_send rfl s⟩

/-- R71: a word of format B, written as its three fields. -/
theorem append_fields_eq_eventWord (op : BitVec 4) (b : Byte) : op ++ 0x00#8 ++ b = eventWord op (operandB b) :=
  BitVec.append_assoc

/-- Settles O38: the word is the row's encoding, and the row sends its mask. -/
theorem simulatedButtonSendsItsMask : Obligations.SimulatedButtonSendsItsMask := by
  intro m s
  refine ⟨?word, exec_of_meaning_send rfl s⟩
  case word =>
    rw [append_fields_eq_eventWord]
    exact decode_encode (i := .simBtn m) rfl

end Sys2Proof.Machine
end

section
/-! The movement controller (R170 to R176, R225; O25, O40, O41, O42, O43, O44, O45): what its three events do, what any event may
do to the position and to the request, and what a row of cycles and one control cycle send. -/

namespace Sys2Proof.Machine

/-! ## The three events -/

/-- Settles O40: the word is the row's encoding, and the direction compares the target with the position. -/
theorem moveToSetsTargetAndDirection : Obligations.MoveToSetsTargetAndDirection := by
  intro t s
  refine ⟨decode_encode (i := .moveTo t) rfl, fun absent => ?absent, fun present above => ?up, fun present below => ?down⟩
  case absent => exact if_neg (by simp [absent])
  case up =>
    have up : direction t s.curPos = .raising := if_pos above
    rw [← up]
    exact if_pos present
  case down =>
    have down : direction t s.curPos = .lowering := if_neg below.not_gt
    rw [← down]
    exact if_pos present

/-- Settles O41. -/
theorem stopForcesIdle : Obligations.StopForcesIdle := fun _ => ⟨decode_encode (i := .stop) rfl, rfl⟩

theorem execCycle_of_raising {s : State} (raising : s.mvState = .raising) :
    execCycle s = if s.tgtPos ≤ s.curPos then .next { s with mvState := .idle } else .next (txFrame driveUp s) := by
  rw [execCycle, raising]

theorem execCycle_of_lowering {s : State} (lowering : s.mvState = .lowering) :
    execCycle s = if s.curPos ≤ s.tgtPos then .next { s with mvState := .idle } else .next (txFrame driveDown s) := by
  rw [execCycle, lowering]

/-- Short of the target, `CYCLE` does what the row that sends the drive frame of its direction does (R151, R172). -/
theorem exec_cycle_eq_driveUp {s : State} (raising : s.mvState = .raising) (short : s.curPos.toNat < s.tgtPos.toNat) :
    exec .cycle s = exec .cmdDriveUp s :=
  (execCycle_of_raising raising).trans (if_neg short.not_ge)

theorem exec_cycle_eq_driveDown {s : State} (lowering : s.mvState = .lowering) (short : s.tgtPos.toNat < s.curPos.toNat) :
    exec .cycle s = exec .cmdDriveDown s :=
  (execCycle_of_lowering lowering).trans (if_neg short.not_ge)

/-- Settles O42: the word is the row's encoding, and while moving the comparison with the target decides. -/
theorem cycleMovesOrStops : Obligations.CycleMovesOrStops := by
  intro s
  refine ⟨decode_encode (i := .cycle) rfl, fun idle => ?idle, fun raising reached => ?top, fun lowering reached => ?bottom,
    fun raising short => ?up, fun lowering short => ?down⟩
  case idle =>
    show execCycle s = _
    rw [execCycle, idle]
  case top => exact (execCycle_of_raising raising).trans (if_pos reached)
  case bottom => exact (execCycle_of_lowering lowering).trans (if_pos reached)
  case up => exact (exec_cycle_eq_driveUp raising short).trans (exec_of_meaning_send rfl s)
  case down => exact (exec_cycle_eq_driveDown lowering short).trans (exec_of_meaning_send rfl s)

/-! ## The position is written only by an accepted reading -/

/-- The byte that completes a frame leaves the position alone or makes it the frame's reading (R113, R114). -/
theorem position_of_awaitsChecksum {c : Byte} {s t : State} (await : AwaitsChecksum s)
    (legal : s.cfg.segTable.legal = true) (h : deskByte c s = .next t) :
    (t.curPos = s.curPos ∧ t.posKnown = s.posKnown) ∨
      (t.posKnown = true ∧ ValidDeskFrame s.cfg.msgLen s.cfg.segTable s.dbuf c t.curPos) := by
  by_cases sum : FrameSums s.cfg.msgLen s.dbuf c
  · by_cases valid : ∃ r, ValidDeskFrame s.cfg.msgLen s.cfg.segTable s.dbuf c r
    · obtain ⟨r, valid⟩ := valid
      rw [deskByte_of_valid await legal valid, acceptReading_eq] at h
      cases h
      exact .inr ⟨rfl, valid⟩
    · rw [deskByte_of_noReading await sum (not_exists.1 valid)] at h
      cases h
      exact .inl ⟨rfl, rfl⟩
  · rw [deskByte_of_badSum await sum] at h
    cases h
    exact .inl ⟨rfl, rfl⟩

theorem position_of_deskByte {c : Byte} {s t : State} (inv : CoreInv s) (h : deskByte c s = .next t) :
    (t.curPos = s.curPos ∧ t.posKnown = s.posKnown) ∨
      (AwaitsChecksum s ∧ t.posKnown = true ∧ ValidDeskFrame s.cfg.msgLen s.cfg.segTable s.dbuf c t.curPos) := by
  obtain ⟨_, rfl⟩ | ⟨_, rfl⟩ | ⟨_, _, rfl⟩ | await := deskByte_cases_of_coreInv inv h
  · exact .inl ⟨rfl, rfl⟩
  · exact .inl ⟨rfl, rfl⟩
  · exact .inl ⟨rfl, rfl⟩
  · exact (position_of_awaitsChecksum await inv.table h).imp_right (.intro await)

/-- Settles O25: only a desk byte writes the position (O54), and only the one that completes a valid frame. -/
theorem positionWrittenOnlyByAcceptedReading : Obligations.PositionWrittenOnlyByAcceptedReading := by
  intro i s t inv hi h changed
  have written : ¬(t.curPos = s.curPos ∧ t.posKnown = s.posKnown) := fun ⟨cur, known⟩ =>
    changed.elim (absurd cur) (absurd known)
  by_cases desk : ∃ c, i = .deskRx c
  · obtain ⟨c, rfl⟩ := desk
    obtain same | ⟨await, known, valid⟩ := position_of_deskByte inv h
    · exact absurd same written
    · exact ⟨known, c, rfl, await.phase, await.count, valid⟩
  · obtain ⟨deskElements, _⟩ := eachElementHasItsOwnWriters i s t hi h
    obtain ⟨_, _, _, same⟩ := deskElements (not_exists.1 desk)
    exact absurd same written

/-! ## One request, one direction -/

/-- `CYCLE` keeps the target, and it keeps the direction or makes it IDLE (R172). -/
theorem execCycle_request {s t : State} (h : execCycle s = .next t) :
    t.tgtPos = s.tgtPos ∧ (t.mvState = s.mvState ∨ t.mvState = .idle) := by
  obtain ⟨_, hc⟩ | ⟨_, _, hc⟩ | ⟨_, _, hc⟩ | ⟨_, _, hc⟩ | ⟨_, _, hc⟩ := execCycle_cases s <;> rw [hc] at h <;> cases h
  · exact ⟨rfl, .inl rfl⟩
  · exact ⟨rfl, .inr rfl⟩
  · simp [txFrame_eq]
  · exact ⟨rfl, .inr rfl⟩
  · simp [txFrame_eq]

/-- O43's first half, one case for each meaning: a row that is not a movement event does not write the request. -/
theorem exec_request {i : Instr} {s t : State} (h : exec i s = .next t) (no : ∀ g, i ≠ .moveTo g) :
    t.tgtPos = s.tgtPos ∧ (t.mvState = s.mvState ∨ (t.mvState = .idle ∧ (i = .stop ∨ i = .cycle))) := by
  rw [exec_eq_run] at h
  cases hm : meaning i <;> rw [hm] at h
  case desk b =>
    obtain ⟨_, _, _, _, _, _, _, rfl⟩ := deskByte_writes h
    exact ⟨rfl, .inl rfl⟩
  case remote b =>
    obtain ⟨_, _, _, _, _, _, _, _, _, rfl⟩ := remByte_writes h
    exact ⟨rfl, .inl rfl⟩
  case cycle =>
    obtain ⟨target, move⟩ := execCycle_request h
    exact ⟨target, move.imp_right fun idle => ⟨idle, .inr (meaning_eq_cycle hm)⟩⟩
  case moveTo g => exact absurd (meaning_eq_moveTo hm) (no g)
  case stop =>
    cases h
    exact ⟨rfl, .inr ⟨rfl, .inl (meaning_eq_stop hm)⟩⟩
  case send p =>
    cases h
    simp [txFrame_eq]
  case illegal =>
    cases h
    exact ⟨rfl, .inl rfl⟩
  case deskBytes bs =>
    obtain ⟨_, _, _, _, _, _, _, rfl⟩ := onlyDeskWritten_of_deskBytes h
    exact ⟨rfl, .inl rfl⟩
  case remoteBytes bs =>
    obtain ⟨_, _, _, _, _, _, _, _, _, _, rfl⟩ := onlyRemoteWritten_of_remoteBytes h
    exact ⟨rfl, .inl rfl⟩

/-- O43's second half: IDLE is never left without a `MOVE_TO`. -/
theorem runEvents_direction {is : List Instr} {s t : State} (h : runEvents is s = .next t)
    (no : ∀ g, Instr.moveTo g ∉ is) : t.mvState = s.mvState ∨ t.mvState = .idle := by
  induction is generalizing s with
  | nil =>
    cases h
    exact .inl rfl
  | cons i is ih =>
    obtain ⟨u, hu, ht⟩ := andThen_next.1 h
    have first : u.mvState = s.mvState ∨ u.mvState = .idle :=
      (exec_request hu fun g hg => no g (hg ▸ List.mem_cons_self)).2.imp_right And.left
    obtain kept | idle := ih ht fun g hg => no g (List.mem_cons_of_mem i hg)
    · rwa [kept]
    · exact .inr idle

/-- Settles O43. -/
theorem directionIsFixedWithinOneRequest : Obligations.DirectionIsFixedWithinOneRequest :=
  ⟨fun _ _ _ => exec_request, fun _ _ _ => runEvents_direction⟩

/-! ## A row of cycles -/

/-- Settles O44, by induction on the length of the row: each cycle sends its frame and leaves the core short of the target. -/
theorem unreachedTargetIsDrivenAtEveryCycle : Obligations.UnreachedTargetIsDrivenAtEveryCycle := by
  intro n
  induction n with
  | zero => exact fun s _ _ _ => ⟨s, rfl, rfl, by simp⟩
  | succ n ih =>
    intro s raising short present
    have first : exec .cycle (takeAll s) = .next (emitAll (frameEvents driveUp) (takeAll s)) :=
      (exec_cycle_eq_driveUp (s := takeAll s) raising short).trans (congrArg _ (if_pos present))
    obtain ⟨t, ht, frame, outputs⟩ := ih (emitAll (frameEvents driveUp) (takeAll s)) raising short present
    refine ⟨t, ?completes, frame, ?outputs⟩
    case completes => rw [List.replicate_succ, runEvents_cons, first, andThen_of_next, ht]
    case outputs => simp [outputs, List.replicate_succ, frameEvents_eq]

/-! ## One control cycle -/

/-- What was emitted in `s` is followed in `t` by events of which none is a byte for the desk bus. -/
def NoTxEmitted (s t : State) : Prop := ∃ es, t.taken ++ t.out = s.taken ++ s.out ++ es ∧ txBytes es = []

theorem noTxEmitted_of_same_outputs {s t : State} (same : t.taken ++ t.out = s.taken ++ s.out) : NoTxEmitted s t :=
  ⟨[], by rw [same, List.append_nil], rfl⟩

theorem NoTxEmitted.trans {s t u : State} (first : NoTxEmitted s t) (second : NoTxEmitted t u) : NoTxEmitted s u := by
  obtain ⟨es, hes, noes⟩ := first
  obtain ⟨fs, hfs, nofs⟩ := second
  exact ⟨es ++ fs, by rw [hfs, hes, List.append_assoc], by rw [txBytes_append, noes, nofs, List.append_nil]⟩

theorem noTxEmitted_emitAll {es : List OutEvent} (quiet : txBytes es = []) (s : State) : NoTxEmitted s (emitAll es s) :=
  ⟨es, by simp, quiet⟩

theorem noTxEmitted_acceptReading (r : Tenths) (s : State) : NoTxEmitted s (acceptReading r s) := by
  rw [acceptReading_eq]
  exact ⟨_, (List.append_assoc _ _ _).symm, by split <;> rfl⟩

/-- A desk byte is answered with a height, a diagnostic or nothing (R113, R114). -/
theorem noTxEmitted_deskByte {b : Byte} {s t : State} (h : deskByte b s = .next t) : NoTxEmitted s t := by
  obtain rfl | ⟨_, _, _, rfl⟩ | ⟨_, _, _, _, rfl⟩ | ⟨_, _, _, _, rfl⟩ := deskByte_cases h
  · exact noTxEmitted_of_same_outputs rfl
  · exact noTxEmitted_of_same_outputs rfl
  · exact noTxEmitted_of_same_outputs rfl
  · have emptied : NoTxEmitted s (deskResync (deskAppend b s)) := noTxEmitted_of_same_outputs rfl
    obtain hf | hf | ⟨r, _, hf⟩ := deskFrame_outcomes (deskAppend b s) <;> rw [hf]
    · exact emptied.trans (noTxEmitted_emitAll rfl _)
    · exact emptied
    · exact emptied.trans (noTxEmitted_acceptReading r _)

theorem noTxEmitted_deskBytes {bs : List Byte} {s t : State} (h : forBytes deskByte bs s = .next t) : NoTxEmitted s t :=
  forBytes_rel (R := NoTxEmitted) (fun _ => noTxEmitted_of_same_outputs rfl) (fun _ _ _ => .trans)
    (fun _ => noTxEmitted_of_same_outputs (by simp)) (fun _ _ _ => noTxEmitted_deskByte) bs s t h

theorem forBytes_desk_completes {s : State} (inv : CoreInv s) (bs : List Byte) :
    ∃ t, forBytes deskByte bs s = .next t := by
  have one : ∀ b s, CoreInv s → ∃ t, deskByte b s = .next t ∧ CoreInv t := fun b s hs =>
    have ⟨t, ht⟩ := deskByte_completes hs b
    ⟨t, ht, coreInv_deskByte hs ht⟩
  obtain ⟨t, ht, _⟩ := forBytes_completes (P := CoreInv) (fun _ => coreInv_takeAll) one bs s inv
  exact ⟨t, ht⟩

theorem runEvents_append (is js : List Instr) (s : State) :
    runEvents (is ++ js) s = andThen (runEvents is s) (runEvents js) := by
  induction is generalizing s with
  | nil => rfl
  | cons i is ih =>
    rw [List.cons_append, runEvents_cons, runEvents_cons, funext ih]
    cases exec i (takeAll s) <;> rfl

theorem runEvents_singleton (i : Instr) (s : State) : runEvents [i] s = exec i (takeAll s) := by
  rw [runEvents_cons]
  cases exec i (takeAll s) <;> rfl

/-- Without remote bytes a control cycle is its desk bytes and then `CYCLE` (R225). -/
theorem runEvents_controlCycle {bs : List Byte} {s u : State} (desk : forBytes deskByte bs s = .next u) :
    runEvents (controlCycle bs []) s = execCycle (takeAll u) := by
  have bytes : runEvents (bs.map .deskRx) s = .next u :=
    (runEvents_map_eq_forBytes (f := deskByte) (fun _ _ => rfl) bs s).trans desk
  rw [controlCycle, List.map_nil, List.append_nil, runEvents_append, bytes, andThen_of_next, runEvents_singleton]
  rfl

/-- The bytes a `CYCLE` may send the desk in a movement state: none, or the drive frame of the direction (R172). -/
def AtMostOneDriveFrame (m : MvState) (bs : List Byte) : Prop :=
  bs = [] ∨ (m = .raising ∧ bs = enc driveUp) ∨ (m = .lowering ∧ bs = enc driveDown)

theorem txBytes_frameEvents (p : Byte) : txBytes (frameEvents p) = enc p := rfl

theorem txFrame_sends (p : Byte) (s : State) :
    ∃ es, (txFrame p s).taken ++ (txFrame p s).out = s.taken ++ s.out ++ es ∧ (txBytes es = [] ∨ txBytes es = enc p) := by
  rw [txFrame_eq]
  refine ⟨_, (List.append_assoc _ _ _).symm, ?_⟩
  split
  · exact .inr (txBytes_frameEvents p)
  · exact .inl rfl

theorem execCycle_sends (s : State) :
    ∃ t es, execCycle s = .next t ∧ t.taken ++ t.out = s.taken ++ s.out ++ es ∧
      AtMostOneDriveFrame s.mvState (txBytes es) := by
  obtain ⟨_, hc⟩ | ⟨_, _, hc⟩ | ⟨raising, _, hc⟩ | ⟨_, _, hc⟩ | ⟨lowering, _, hc⟩ := execCycle_cases s
  · exact ⟨_, [], hc, (List.append_nil _).symm, .inl rfl⟩
  · exact ⟨_, [], hc, (List.append_nil _).symm, .inl rfl⟩
  · obtain ⟨es, sent, bytes⟩ := txFrame_sends driveUp s
    exact ⟨_, es, hc, sent, bytes.imp_right fun up => .inl ⟨raising, up⟩⟩
  · exact ⟨_, [], hc, (List.append_nil _).symm, .inl rfl⟩
  · obtain ⟨es, sent, bytes⟩ := txFrame_sends driveDown s
    exact ⟨_, es, hc, sent, bytes.imp_right fun down => .inr ⟨lowering, down⟩⟩

/-- Settles O45: the desk bytes send nothing and keep the direction, so what is sent is what the one `CYCLE` sends. -/
theorem controlCycleSendsAtMostOneFrame : Obligations.ControlCycleSendsAtMostOneFrame := by
  intro bs s inv
  obtain ⟨u, hu⟩ := forBytes_desk_completes inv bs
  obtain ⟨_, _, _, _, _, _, _, written⟩ := onlyDeskWritten_of_deskBytes hu
  have move : u.mvState = s.mvState := by rw [written]
  obtain ⟨heard, answered, quiet⟩ := noTxEmitted_deskBytes hu
  obtain ⟨t, sent, ht, outputs, drive⟩ := execCycle_sends (takeAll u)
  refine ⟨t, heard ++ sent, (runEvents_controlCycle hu).trans ht, ?outputs, ?drive⟩
  case outputs => rw [outputs, takeAll_taken, takeAll_out, List.append_nil, answered, List.append_assoc]
  case drive =>
    rw [txBytes_append, quiet, List.nil_append, ← move]
    exact drive

end Sys2Proof.Machine
end

section
/-! The core has no stop of its own (R200, R202, R214, R224; O8, O47, O53): without an input or a transport nothing happens, and
whatever a host offers within its duties is answered with a next state. -/

namespace Sys2Proof.Machine

/-! ## Without an input -/

/-- Settles O8. -/
theorem withoutInputTheStateHolds : Obligations.WithoutInputTheStateHolds := by
  intro s hhost
  rw [step, hhost]

/-! ## Without a transport -/

theorem deskByte_of_absent {s : State} (hd : s.cfg.deskPresent = false) (b : Byte) : deskByte b s = .next s :=
  if_neg (Bool.eq_false_iff.1 hd)

theorem remByte_of_absent {s : State} (hr : s.cfg.remotePresent = false) (b : Byte) : remByte b s = .next s :=
  if_neg (Bool.eq_false_iff.1 hr)

theorem execMoveTo_of_absent {s : State} (hd : s.cfg.deskPresent = false) (g : Tenths) : execMoveTo g s = .next s :=
  if_neg (Bool.eq_false_iff.1 hd)

theorem txFrame_of_absent {s : State} (hd : s.cfg.deskPresent = false) (p : Byte) : txFrame p s = s :=
  if_neg (Bool.eq_false_iff.1 hd)

/-- Bytes that change nothing leave only what their frame row does itself: the host takes what was pending (log entry 6). -/
theorem forBytes_of_silent {f : Byte → State → Result} {s : State} (silent : ∀ b, f b (takeAll s) = .next (takeAll s))
    (b : Byte) (bs : List Byte) : forBytes f (b :: bs) s = .next (takeAll s) := by
  rw [forBytes_cons, silent, andThen_of_next]
  induction bs with
  | nil => rfl
  | cons c cs ih => rw [forBytes_cons, takeAll_takeAll, silent, andThen_of_next, ih]

/-- A row that sends a frame has no other effect than the frame. -/
theorem exec_of_meaning_send_absent {i : Instr} {p : Byte} (hm : meaning i = .send p) {s : State}
    (hd : s.cfg.deskPresent = false) : exec i s = .next s := by
  rw [exec_eq_run, hm, Meaning.run, txFrame_of_absent hd]

/-- Settles O47. -/
theorem absentTransportsAreSilent : Obligations.AbsentTransportsAreSilent := by
  intro s drained
  refine ⟨fun hd => ?desk, fun hr => ?remote⟩
  case desk =>
    have silent : ∀ b, deskByte b (takeAll s) = .next (takeAll s) := deskByte_of_absent (s := takeAll s) hd
    exact ⟨deskByte_of_absent hd, execMoveTo_of_absent hd, exec_of_meaning_send_absent rfl hd,
      exec_of_meaning_send_absent rfl hd, exec_of_meaning_send_absent rfl hd, fun _ => exec_of_meaning_send_absent rfl hd,
      fun h t u y c => forBytes_of_silent silent deskStart [h, t, u, y, c],
      fun h t u c => forBytes_of_silent silent deskStart [h, t, u, c]⟩
  case remote =>
    have silent : ∀ b, remByte b (takeAll s) = .next (takeAll s) := remByte_of_absent (s := takeAll s) hr
    exact ⟨remByte_of_absent hr, fun r m x c => forBytes_of_silent silent remoteStart [r, m, x, c]⟩

/-! ## Every instruction completes -/

theorem execCycle_completes (s : State) : ∃ t, execCycle s = .next t := by
  obtain ⟨_, hc⟩ | ⟨_, _, hc⟩ | ⟨_, _, hc⟩ | ⟨_, _, hc⟩ | ⟨_, _, hc⟩ := execCycle_cases s <;> exact ⟨_, hc⟩

theorem execMoveTo_completes (g : Tenths) (s : State) : ∃ t, execMoveTo g s = .next t := by
  unfold execMoveTo
  split <;> exact ⟨_, rfl⟩

/-- The one fault of the model is a desk byte with no register to go to, and the invariant gives it one (R24, R29, R200). -/
theorem exec_completes {s : State} (inv : CoreInv s) (i : Instr) : ∃ t, exec i s = .next t := by
  cases hm : meaning i
  case deskBytes bs =>
    obtain ⟨t, ht, _⟩ := deskBytes_complete inv hm
    exact ⟨t, ht⟩
  case remoteBytes bs =>
    obtain ⟨t, ht, _⟩ := remoteBytes_complete s hm
    exact ⟨t, ht⟩
  all_goals rw [exec_eq_run, hm]
  case desk b => exact deskByte_completes inv b
  case remote b => exact remByte_completes b s
  case cycle => exact execCycle_completes s
  case moveTo g => exact execMoveTo_completes g s
  case stop => exact ⟨_, rfl⟩
  case send p => exact ⟨_, rfl⟩
  case illegal => exact ⟨_, rfl⟩

/-! ## Every input within the host's duties is answered -/

theorem legal_edge_iff (p : Pins) :
    (HostInput.edge p).legal = true ↔ (p.rst = true → ∃ n, msgLenOfBits p.cfgMsgLen = some n) := by
  simp only [HostInput.legal, Bool.or_eq_true, Bool.not_eq_true', Option.isSome_iff_exists, Bool.eq_false_iff]
  exact imp_iff_not_or.symm

theorem legal_offer_iff (o : Offer) : (HostInput.offer o).legal = true ↔ ∃ i, decode o = .ok i := by
  rw [HostInput.legal]
  cases decode o <;> simp [Except.isOk, Except.toBool]

theorem runOffer_completes {s : State} (inv : CoreInv s) {o : Offer} (legal : ∃ i, decode o = .ok i) :
    ∃ t, runOffer o s = .next t := by
  obtain ⟨i, hdec⟩ := legal
  rw [runOffer_of_decode hdec]
  exact exec_completes inv i

/-- The only edge that stops is a reset edge with a bad `cfg_msg_len` (R38, R224): every event word decodes. -/
theorem clockEdge_completes {s : State} (inv : CoreInv s) {p : Pins}
    (legal : p.rst = true → ∃ n, msgLenOfBits p.cfgMsgLen = some n) : ∃ t, clockEdge p s = .next t := by
  unfold clockEdge
  split
  next hrst =>
    obtain ⟨n, hn⟩ := legal hrst
    rw [resetEdge, hn]
    exact ⟨_, rfl⟩
  next =>
    split
    · split
      · exact runOffer_completes inv ⟨_, rfl⟩
      · exact ⟨_, rfl⟩
    · split <;> exact ⟨_, rfl⟩

theorem step_of_edge {s : State} {p : Pins} {rest : List HostInput} (hhost : s.host = .edge p :: rest) :
    step s = clockEdge p { s with host := rest } := by
  rw [step, hhost]

theorem step_completes {s : State} (inv : CoreInv s) (legal : ∀ x ∈ s.host, x.legal = true) : ∃ t, step s = .next t := by
  cases hhost : s.host with
  | nil => exact ⟨s, withoutInputTheStateHolds s hhost⟩
  | cons x rest =>
    have hx : x.legal = true := legal x (hhost ▸ List.mem_cons_self)
    cases x with
    | edge p =>
      rw [step_of_edge hhost]
      exact clockEdge_completes (coreInv_host inv rest) ((legal_edge_iff p).1 hx)
    | offer o =>
      rw [step_of_offer hhost]
      split
      · exact runOffer_completes (coreInv_host inv rest) ((legal_offer_iff o).1 hx)
      · exact ⟨_, rfl⟩

/-! ## A step only uses the script up -/

theorem step_host_suffix {s t : State} (h : step s = .next t) : t.host <:+ s.host := by
  obtain ⟨_, rfl⟩ | ⟨_, _, hhost, _, rfl⟩ | ⟨_, _, _, hhost, _, _, rfl⟩ | ⟨_, _, _, _, hhost, _, _, rfl⟩ |
    ⟨_, _, _, _, _, _, rfl⟩ | ⟨_, _, _, _, hhost, _, _, _, hx⟩ := step_cases h
  · exact List.suffix_rfl
  · exact hhost ▸ List.suffix_cons _ _
  · exact hhost ▸ List.suffix_cons _ _
  · exact hhost ▸ List.suffix_cons _ _
  · exact List.suffix_rfl
  · rw [(progress_exec hx).host, hhost]
    exact List.suffix_cons _ _

/-- Settles O53: the step completes, and what is left of the script was in it before. -/
theorem nothingEverStopsTheCore : Obligations.NothingEverStopsTheCore := by
  intro s inv legal
  obtain ⟨t, ht⟩ := step_completes inv legal
  exact ⟨t, ht, fun x hx => legal x ((step_host_suffix ht).mem hx)⟩

end Sys2Proof.Machine
end

section
/-! How much one event emits (R205, R239; O48): nothing, one event, a command frame, or the copy of a remote byte and what its
scanner answers. -/

namespace Sys2Proof.Machine

/-! ## Emitting, and nothing else of the channels -/

/-- `t` has the events `es` emitted after those of `s`, with the record, the script and the configuration of `s`. -/
structure Emits (s t : State) (es : List OutEvent) : Prop where
  out : t.out = s.out ++ es
  taken : t.taken = s.taken
  host : t.host = s.host
  cfg : t.cfg = s.cfg

theorem emits_emitAll (es : List OutEvent) (s : State) : Emits s (emitAll es s) es := ⟨rfl, rfl, rfl, rfl⟩

theorem emits_nil {s t : State} (out : t.out = s.out) (taken : t.taken = s.taken) (host : t.host = s.host)
    (cfg : t.cfg = s.cfg) : Emits s t [] :=
  ⟨by rw [out, List.append_nil], taken, host, cfg⟩

theorem Emits.trans {s t u : State} {es fs : List OutEvent} (first : Emits s t es) (second : Emits t u fs) :
    Emits s u (es ++ fs) where
  out := by rw [second.out, first.out, List.append_assoc]
  taken := second.taken.trans first.taken
  host := second.host.trans first.host
  cfg := second.cfg.trans first.cfg

/-! ## The bounds -/

/-- At most `n` events are emitted, and at most one of them is a `Diag`. -/
def EmitsAtMost (n : Nat) (s t : State) : Prop :=
  ∃ es, Emits s t es ∧ es.length ≤ n ∧ (es.filter OutEvent.isDiag).length ≤ 1

theorem EmitsAtMost.mono {m n : Nat} {s t : State} (few : EmitsAtMost m s t) (le : m ≤ n) : EmitsAtMost n s t := by
  obtain ⟨es, emits, short, diags⟩ := few
  exact ⟨es, emits, short.trans le, diags⟩

/-- Events before, none of them a `Diag`, count in addition. -/
theorem EmitsAtMost.after {m n : Nat} {s t u : State} {es : List OutEvent} (few : EmitsAtMost n t u)
    (before : Emits s t es) (short : es.length ≤ m) (quiet : es.filter OutEvent.isDiag = []) :
    EmitsAtMost (n + m) s u := by
  obtain ⟨fs, emits, shortAfter, diags⟩ := few
  refine ⟨es ++ fs, before.trans emits, ?_, ?_⟩
  · rw [List.length_append]
    omega
  · rw [List.filter_append, quiet, List.nil_append]
    exact diags

theorem emitsAtMost_of_silent {n : Nat} {s t : State} (emits : Emits s t []) : EmitsAtMost n s t :=
  ⟨[], emits, Nat.zero_le n, Nat.zero_le 1⟩

theorem emitsAtMost_of_one {n : Nat} {s t : State} {e : OutEvent} (emits : Emits s t [e]) : EmitsAtMost (n + 1) s t :=
  ⟨[e], emits, Nat.le_add_left 1 n, List.length_filter_le _ _⟩

/-! ## What each event emits -/

/-- A command frame is five events for the desk bus (R11). -/
theorem emitsAtMost_txFrame (p : Byte) (s : State) : EmitsAtMost 5 s (txFrame p s) := by
  cases hd : s.cfg.deskPresent
  · rw [txFrame_of_absent hd]
    exact emitsAtMost_of_silent (emits_nil rfl rfl rfl rfl)
  · rw [txFrame_eq, if_pos hd]
    exact ⟨_, emits_emitAll _ s, le_rfl, Nat.zero_le 1⟩

theorem emitsAtMost_acceptReading (r : Tenths) (s : State) : EmitsAtMost 1 s (acceptReading r s) := by
  rw [acceptReading_eq]
  split
  · exact emitsAtMost_of_one ⟨rfl, rfl, rfl, rfl⟩
  · exact emitsAtMost_of_silent ⟨rfl, rfl, rfl, rfl⟩

/-- A desk byte is answered with one diagnostic, one height or nothing (R113, R114). -/
theorem emitsAtMost_deskByte {b : Byte} {s t : State} (h : deskByte b s = .next t) : EmitsAtMost 1 s t := by
  obtain rfl | ⟨_, _, _, rfl⟩ | ⟨_, _, _, _, rfl⟩ | ⟨_, _, _, _, rfl⟩ := deskByte_cases h
  · exact emitsAtMost_of_silent (emits_nil rfl rfl rfl rfl)
  · exact emitsAtMost_of_silent (emits_nil rfl rfl rfl rfl)
  · exact emitsAtMost_of_silent (emits_nil rfl rfl rfl rfl)
  · have emptied : Emits s (deskResync (deskAppend b s)) [] := emits_nil rfl rfl rfl rfl
    obtain hf | hf | ⟨r, _, hf⟩ := deskFrame_outcomes (deskAppend b s) <;> rw [hf]
    · exact emitsAtMost_of_one (emptied.trans (emits_emitAll _ _))
    · exact emitsAtMost_of_silent emptied
    · exact (emitsAtMost_acceptReading r _).after emptied le_rfl rfl

/-- The checksum byte is answered with one diagnostic, or with the buttons and at most an echo (R132, R133). -/
theorem emitsAtMost_remCheck (c : Byte) (s : State) : EmitsAtMost 6 s (remCheck c s) := by
  obtain ⟨_, bad⟩ | ⟨_, good⟩ := remCheck_cases c s
  · rw [bad]
    exact emitsAtMost_of_one ⟨rfl, rfl, rfl, rfl⟩
  · rw [good, remAccept_eq]
    refine ⟨_, ⟨rfl, rfl, rfl, rfl⟩, ?short, ?diags⟩ <;> split
    all_goals simp [frameEvents_eq, OutEvent.isDiag]

/-- The bridge is one event more, and no `Diag` (R134). -/
theorem EmitsAtMost.after_bridge {n : Nat} {b : Byte} {s t : State} (few : EmitsAtMost n (bridge b s) t) :
    EmitsAtMost (n + 1) s t := by
  rw [bridge_eq] at few
  refine few.after (emits_emitAll _ s) ?short ?quiet <;> split <;> simp [OutEvent.isDiag]

/-- The copy, the buttons and the five bytes of the echo are the seven events of R239. -/
theorem emitsAtMost_remByte {b : Byte} {s t : State} (h : remByte b s = .next t) : EmitsAtMost 7 s t := by
  have copied : ∀ {u}, Emits (bridge b s) u [] → EmitsAtMost 7 s u := fun emits =>
    (emitsAtMost_of_silent emits).after_bridge
  obtain ⟨_, rfl⟩ | ⟨_, _, _, rfl⟩ | ⟨_, _, _, rfl⟩ | ⟨_, _, _, rfl⟩ | ⟨_, _, _, rfl⟩ := remByte_cases h
  · exact emitsAtMost_of_silent (emits_nil rfl rfl rfl rfl)
  · exact copied (emits_nil rfl rfl rfl rfl)
  · exact copied (emits_nil rfl rfl rfl rfl)
  · exact copied (emits_nil rfl rfl rfl rfl)
  · exact (emitsAtMost_remCheck b (bridge b s)).after_bridge

theorem emitsAtMost_execCycle {s t : State} (h : execCycle s = .next t) : EmitsAtMost 5 s t := by
  obtain ⟨_, hc⟩ | ⟨_, _, hc⟩ | ⟨_, _, hc⟩ | ⟨_, _, hc⟩ | ⟨_, _, hc⟩ := execCycle_cases s <;> rw [hc] at h <;> cases h
  · exact emitsAtMost_of_silent (emits_nil rfl rfl rfl rfl)
  · exact emitsAtMost_of_silent (emits_nil rfl rfl rfl rfl)
  · exact emitsAtMost_txFrame driveUp s
  · exact emitsAtMost_of_silent (emits_nil rfl rfl rfl rfl)
  · exact emitsAtMost_txFrame driveDown s

theorem emits_nil_execMoveTo {g : Tenths} {s t : State} (h : execMoveTo g s = .next t) : Emits s t [] := by
  obtain rfl | ⟨_, rfl⟩ := execMoveTo_cases h <;> exact emits_nil rfl rfl rfl rfl

/-- One case for each meaning of an event word; a frame row takes outputs between its bytes and is none. -/
theorem emitsAtMost_exec {i : Instr} {s t : State} (hi : i.isEvent = true) (h : exec i s = .next t) : EmitsAtMost 7 s t := by
  rw [exec_eq_run] at h
  cases hm : meaning i <;> rw [hm] at h
  case desk b => exact (emitsAtMost_deskByte h).mono (by decide)
  case remote b => exact emitsAtMost_remByte h
  case cycle => exact (emitsAtMost_execCycle h).mono (by decide)
  case moveTo g => exact emitsAtMost_of_silent (emits_nil_execMoveTo h)
  case stop =>
    cases h
    exact emitsAtMost_of_silent (emits_nil rfl rfl rfl rfl)
  case send p =>
    cases h
    exact (emitsAtMost_txFrame p s).mono (by decide)
  case illegal =>
    cases h
    exact emitsAtMost_of_one ⟨rfl, rfl, rfl, rfl⟩
  case deskBytes bs => exact absurd hm ((meaning_of_isEvent hi).1 bs)
  case remoteBytes bs => exact absurd hm ((meaning_of_isEvent hi).2 bs)

/-- Settles O48. -/
theorem oneEventEmitsAtMostSevenOutputs : Obligations.OneEventEmitsAtMostSevenOutputs := by
  intro i s t hi h
  obtain ⟨es, emits, short, diags⟩ := emitsAtMost_exec hi h
  exact ⟨es, emits.out, short, diags, emits.taken, emits.host, emits.cfg⟩

end Sys2Proof.Machine
end

section
/-! Reset and clock edges (R37, R38, R57, R220, R221, R239; O7, O9, O11, O50): what an edge does with its pins, and that the edges
after an event empty the output channel. -/

namespace Sys2Proof.Machine

/-! ## Reset -/

theorem step_of_reset {s : State} {p : Pins} {rest : List HostInput} (hhost : s.host = .edge p :: rest)
    (hrst : p.rst = true) : step s = resetEdge p { s with host := rest } := by
  rw [step_of_edge hhost, clockEdge, if_pos hrst]

theorem resetEdge_of_msgLen {p : Pins} {n : MsgLen} (hn : msgLenOfBits p.cfgMsgLen = some n) (s : State) :
    resetEdge p s =
      .next (State.resetWith ⟨n, p.cfgDeskPresent, p.cfgRemotePresent, s.cfg.segTable⟩ s.taken s.host) := by
  rw [resetEdge, hn]

theorem msgLenOfBits_eq_some {b : BitVec 3} {n : MsgLen} (h : (b = 5 ∧ n = .five) ∨ (b = 6 ∧ n = .six)) :
    msgLenOfBits b = some n := by
  obtain ⟨rfl, rfl⟩ | ⟨rfl, rfl⟩ := h <;> rfl

/-- Settles O9. -/
theorem resetEdgeSetsEveryElement : Obligations.ResetEdgeSetsEveryElement := fun _ _ _ hhost hrst _ hn =>
  (step_of_reset hhost hrst).trans (resetEdge_of_msgLen (msgLenOfBits_eq_some hn) _)

/-- Settles O11: each level output shows an element that `State.resetWith` clears. -/
theorem levelOutputsAfterReset : Obligations.LevelOutputsAfterReset := fun c es hs =>
  ⟨rfl, rfl, rfl, BitVec.eq_of_toNat_eq (toNat_buttons (State.resetWith c es hs)), rfl⟩

/-! ## An edge with `rst` low -/

theorem step_of_edge_ready {s : State} {p : Pins} {rest : List HostInput} (hhost : s.host = .edge p :: rest)
    (hrst : p.rst = false) (hout : s.out = []) :
    step s = if p.evtValid = true then runOffer (.event p.evtWord) { s with host := rest }
      else .next { s with host := rest } := by
  rw [step_of_edge hhost, clockEdge, if_neg (Bool.eq_false_iff.1 hrst),
    if_pos ((evtReady_eq_true_iff { s with host := rest }).2 hout)]

theorem step_of_edge_pending {s : State} {p : Pins} {rest : List HostInput} (hhost : s.host = .edge p :: rest)
    (hrst : p.rst = false) (hout : s.out ≠ []) :
    step s = if p.outReady = true then .next (takeOutput { s with host := rest })
      else .next { s with host := rest } := by
  rw [step_of_edge hhost, clockEdge, if_neg (Bool.eq_false_iff.1 hrst),
    if_neg (mt (evtReady_eq_true_iff { s with host := rest }).1 hout)]

/-- Settles O7, one clause for each way through the edge. -/
theorem clockEdgeRunsTheOfferedWord : Obligations.ClockEdgeRunsTheOfferedWord := by
  intro s p rest hhost hrst
  refine ⟨fun hout valid i hdec => ?runs, fun hout invalid => ?idle, fun e es hout ready => ?taken,
    fun hout unready => ?waits⟩
  case runs => rw [step_of_edge_ready hhost hrst hout, if_pos valid, runOffer_of_decode hdec]
  case idle => rw [step_of_edge_ready hhost hrst hout, if_neg (Bool.eq_false_iff.1 invalid)]
  case taken =>
    have pending : s.out ≠ [] := by simp [hout]
    rw [step_of_edge_pending hhost hrst pending, if_pos ready,
      takeOutput_cons (s := { s with host := rest }) hout]
  case waits => rw [step_of_edge_pending hhost hrst hout, if_neg (Bool.eq_false_iff.1 unready)]

/-! ## An event and the edges after it -/

theorem isEvent_of_encode {i : Instr} {w : EventWord} (h : encode i = .event w) : i.isEvent = true := by
  cases i
  case deskStatus6 | deskStatus5 | remoteKeys => cases h
  case cmdDriveUp | cmdDriveDown | cmdPreset1 | cmdPreset2 | cmdPreset3 | cmdButton => cases h
  all_goals rfl

theorem isEvent_of_decode {i : Instr} {w : EventWord} (h : decode (.event w) = .ok i) : i.isEvent = true := by
  obtain ⟨_, enc⟩ := encodeOfDecodeIsIdentity (.event w) i h
  exact isEvent_of_encode enc

/-- An edge at which the host is ready takes the oldest output, if there is one (R36). -/
theorem step_of_ready_edge (s : State) (rest : List HostInput) :
    step (withHost (.edge readyPins :: rest) s) = .next (withHost rest (takeOutput s)) := by
  obtain ⟨_, idle, taken, _⟩ := clockEdgeRunsTheOfferedWord (withHost (.edge readyPins :: rest) s) readyPins rest rfl rfl
  cases hout : s.out with
  | nil =>
    rw [takeOutput_nil hout]
    exact idle hout rfl
  | cons e es =>
    rw [takeOutput_cons hout]
    exact taken e es hout rfl

theorem takeOutput_out (s : State) : (takeOutput s).out = s.out.tail := by
  cases hout : s.out with
  | nil => rw [takeOutput_nil hout, hout, List.tail_nil]
  | cons e es => rw [takeOutput_cons hout, List.tail_cons]

/-- As many ready edges as there are pending outputs, or more, take them all; the edges left over change nothing. -/
theorem run_ready_edges (rest : List HostInput) (n : Nat) {s : State} (few : s.out.length ≤ n) :
    Sys2Proof.core.run n (withHost (List.replicate n (.edge readyPins) ++ rest) s) =
      .next (withHost rest (takeAll s)) := by
  induction n generalizing s with
  | zero =>
    have hout : s.out = [] := List.eq_nil_of_length_eq_zero (Nat.le_zero.1 few)
    rw [takeAll_of_out_nil hout]
    rfl
  | succ n ih =>
    have fewer : (takeOutput s).out.length ≤ n := by
      rw [takeOutput_out, List.length_tail]
      omega
    calc Sys2Proof.core.run (n + 1) (withHost (List.replicate (n + 1) (.edge readyPins) ++ rest) s)
        = Sys2Proof.core.run n (withHost (List.replicate n (.edge readyPins) ++ rest) (takeOutput s)) :=
          run_of_step (step_of_ready_edge s _)
      _ = .next (withHost rest (takeAll (takeOutput s))) := ih fewer
      _ = .next (withHost rest (takeAll s)) := by rw [takeAll_takeOutput]

/-- Settles O50: the first edge runs the event, which emits at most seven outputs and takes none; the other seven take them. -/
theorem eventFinishesWithinEightEdges : Obligations.EventFinishesWithinEightEdges := by
  intro w i s u rest hout hhost hdec hx
  obtain ⟨es, hes, few, _, htaken, _, _⟩ := oneEventEmitsAtMostSevenOutputs i s u (isEvent_of_decode hdec) hx
  have seven : u.out.length ≤ 7 := by rw [hes, hout]; exact few
  have first : step s = .next (withHost (List.replicate 7 (.edge readyPins) ++ rest) u) := by
    obtain ⟨runs, _⟩ := clockEdgeRunsTheOfferedWord s (eventPins w) _ hhost rfl
    exact (runs hout rfl i hdec).trans (exec_withHost hx _)
  calc Sys2Proof.core.run 8 s
      = Sys2Proof.core.run 7 (withHost (List.replicate 7 (.edge readyPins) ++ rest) u) := run_of_step first
    _ = .next (withHost rest (takeAll u)) := run_ready_edges rest 7 seven
    _ = .next { u with out := [], taken := s.taken ++ u.out, host := rest } := by rw [← htaken]; rfl

end Sys2Proof.Machine
end

section
/-! The window of the desk scanner and the first reading (R112, R115, R223, R230; O22, O26): the bytes after a start byte are the
frame whatever they are, and the first valid frame is published whatever it says. -/

namespace Sys2Proof.Machine

/-! ## The window -/

theorem runEvents_deskf_append (bs : List Byte) (b : Byte) {s u : State} (h : runEvents (deskf bs) s = .next u) :
    runEvents (deskf (bs ++ [b])) s = deskByte b (takeAll u) := by
  have split : deskf (bs ++ [b]) = deskf bs ++ [.deskRx b] := by simp [deskf]
  rw [split, runEvents_append, h, andThen_of_next, runEvents_singleton]
  rfl

/-- The window: while the frame is not complete the buffer holds the bytes since the start byte, in order (R112, R116). -/
theorem runEvents_deskf_holds {s : State} (hd : s.cfg.deskPresent = true) (hp : s.dphase = .searching) (bs : List Byte)
    (room : bs.length < msgLenNat s.cfg.msgLen - 1) :
    ∃ n buf, runEvents (deskf bs) s = .next (deskHolding n buf (takeAll s)) ∧ n.toNat = bs.length ∧
      buf.toList.take bs.length = bs := by
  induction bs using List.reverseRecOn with
  | nil =>
    refine ⟨0, s.dbuf, ?_, rfl, rfl⟩
    rw [runEvents_deskf, forBytes_singleton]
    exact deskByte_start (s := takeAll s) hd hp
  | append_singleton bs b ih =>
    rw [List.length_append, List.length_singleton] at room
    obtain ⟨n, buf, hrun, hn, hbuf⟩ := ih (by omega)
    have hlen := (msgLenNat_le s.cfg.msgLen).2
    have stored : deskByte b (deskHolding n buf (takeAll s)) = _ := deskByte_store (s := takeAll s) hd (by rwa [hn]) b
    refine ⟨n + 1, buf.setIfInBounds n.toNat b, ?run, ?count, ?bytes⟩
    case run => rw [runEvents_deskf_append bs b hrun, takeAll_of_out_nil rfl, stored]
    case count =>
      rw [BitVec.toNat_add, hn, List.length_append]
      exact Nat.mod_eq_of_lt (by simp; omega)
    case bytes =>
      rw [List.length_append, List.length_singleton, hn, take_setIfInBounds_succ buf (by omega), hbuf]

theorem dcnt_of_awaitsChecksum {c : Byte} {s t : State} (await : AwaitsChecksum s) (h : deskByte c s = .next t) :
    t.dcnt = 0 := by
  rw [deskByte_of_awaitsChecksum await] at h
  cases h
  rfl

/-- The window ends with its last byte, whatever the frame came to (R115). -/
theorem runEvents_deskf_complete {s : State} (hd : s.cfg.deskPresent = true) (hp : s.dphase = .searching) (bs : List Byte)
    (full : bs.length = msgLenNat s.cfg.msgLen - 1) :
    ∃ t, runEvents (deskf bs) s = .next t ∧ t.dphase = .searching ∧ t.dcnt = 0 := by
  have hlen := (msgLenNat_le s.cfg.msgLen).1
  obtain rfl | ⟨bs, c, rfl⟩ := bs.eq_nil_or_concat'
  · rw [List.length_nil] at full
    omega
  · rw [List.length_append, List.length_singleton] at full
    obtain ⟨n, buf, hrun, hn, _⟩ := runEvents_deskf_holds hd hp bs (by omega)
    have await : AwaitsChecksum (deskHolding n buf (takeAll s)) := ⟨hd, rfl, (congrArg (· + 1) hn).trans full⟩
    have last := deskByte_of_awaitsChecksum await c
    refine ⟨_, ?_, dphase_of_awaitsChecksum await last, dcnt_of_awaitsChecksum await last⟩
    rw [runEvents_deskf_append bs c hrun, takeAll_of_out_nil rfl, last]

/-- Settles O22. -/
theorem deskWindowIsTakenWhateverItHolds : Obligations.DeskWindowIsTakenWhateverItHolds := by
  intro bs s hd hp
  refine ⟨fun room => ?holds, runEvents_deskf_complete hd hp bs⟩
  obtain ⟨n, buf, hrun, hn, hbuf⟩ := runEvents_deskf_holds hd hp bs room
  refine ⟨_, hrun, rfl, hn, List.append_nil _, fun i hi inside => ?_⟩
  calc some buf[i] = buf.toList[i]? := by simp [hi]
    _ = (buf.toList.take bs.length)[i]? := (List.getElem?_take_of_lt inside).symm
    _ = bs[i]? := by rw [hbuf]

/-! ## The first reading -/

theorem progress_runEvents {is : List Instr} {s t : State} (h : runEvents is s = .next t) : Progress s t := by
  induction is generalizing s with
  | nil =>
    cases h
    exact .refl _
  | cons i is ih =>
    obtain ⟨u, hu, ht⟩ := andThen_next.1 h
    exact ((progress_takeAll s).trans (progress_exec hu)).trans (ih ht)

/-- Settles O26: with `pos_known` low the reading counts as new whatever `cur_pos` is. -/
theorem firstReadingAfterResetIsPublished : Obligations.FirstReadingAfterResetIsPublished := by
  intro cfg is s c h legal hd hrun unknown hp hc valid
  obtain rfl : s.cfg = cfg := (progress_runEvents hrun).cfg
  have accepted : deskByte c s = _ := deskByte_of_valid ⟨hd, hp, hc⟩ legal valid
  refine ⟨_, accepted, ?_⟩
  rw [acceptReading_eq, deskResync_posKnown, if_pos (.inl unknown)]
  exact ⟨rfl, rfl⟩

end Sys2Proof.Machine
end
